-- ==== Sys2Proof/Syntax.lean ====
section
/-! DEFINITION. The commands of the block, one constructor per row of spec/opcode_table.json (30_encoding.md R088).
A command word carries no register number and no immediate (R085), so no constructor has an argument. -/

namespace Sys2Proof

/-- A command the ENGINE executes. Its operands are fields of the host-written registers (R090). -/
inductive Instr where
  /-- NOP, OP 0x0 (40_commands.md R106). -/
  | nop
  /-- GENERATE, OP 0x1 (R102). -/
  | generate
  /-- LOOKUP, OP 0x2 (R103). -/
  | lookup
  /-- SELECT, OP 0x3 (R104). -/
  | select
  /-- RSENC, OP 0x4 (R105). -/
  | rsenc
deriving DecidableEq, Repr

end Sys2Proof
end

