-- ==== Sys2Proof/Word.lean ====
section
/-! DEFINITION. The word types of the machine: bytes of the buffers, 32-bit registers and command words
(spec 10_state.md R022, 30_encoding.md R085), and the 15-bit byte address of the host window (20_memory.md R060). -/

namespace Sys2Proof

/-- A byte, bit 7 most significant (R006). -/
abbrev Byte := BitVec 8

/-- A 32-bit word: a register as the host reads it, a command word, a host scratch register. -/
abbrev Word := BitVec 32

/-- An unsigned 15-bit byte address of the host window 0x0000 to 0x7FFF (R060). -/
abbrev Addr := BitVec 15

end Sys2Proof
end

