-- ==== Sys2Proof/Decode.lean ====
section
/-! DEFINITION. Decoding of a command word (30_encoding.md R085, R087), total and rejecting by name, and the encoder
written from the same opcode map (R088). -/

namespace Sys2Proof

/-- Why a word is no command (R087, R089). -/
inductive DecodeError where
  /-- RSV ≠ 0, whatever OP is. -/
  | reservedBits (op : BitVec 4)
  /-- RSV = 0 and OP is one of 0x5..0xF. -/
  | reservedOpcode (op : BitVec 4)
deriving DecidableEq, Repr

/-- The field OP, bits 3:0 of a command word (R085). -/
def cmdOp (w : Word) : BitVec 4 := w.extractLsb' 0 4

/-- The field RSV, bits 31:4 of a command word (R085). -/
def cmdRsv (w : Word) : BitVec 28 := w.extractLsb' 4 28

/-- The decoder of the ENGINE step (R087): RSV is checked before OP is read. -/
def decode (w : Word) : Except DecodeError Instr :=
  if cmdRsv w ≠ 0 then .error (.reservedBits (cmdOp w))
  else match (cmdOp w).toNat with
    | 0 => .ok .nop
    | 1 => .ok .generate
    | 2 => .ok .lookup
    | 3 => .ok .select
    | 4 => .ok .rsenc
    | _ => .error (.reservedOpcode (cmdOp w))

/-- The ERRINFO byte IllegalCommand reports for a word that is no command: OP, with bit 4 set where RSV ≠ 0 (R087). -/
def DecodeError.info : DecodeError → Byte
  | .reservedBits op => op.setWidth 8 ||| 0x10
  | .reservedOpcode op => op.setWidth 8

/-- The opcode of a command (R088). -/
def opcode : Instr → BitVec 4
  | .nop => 0x0
  | .generate => 0x1
  | .lookup => 0x2
  | .select => 0x3
  | .rsenc => 0x4

/-- The command word of a command: RSV = 0 above its OP (R085, R088). -/
def encode (i : Instr) : Word := 0#28 ++ opcode i

/-- The bytes of a command word as a 32-bit write puts them on the little-endian window, lowest address first (20_memory.md R066). -/
def cmdBytes (w : Word) : List Byte :=
  [w.extractLsb' 0 8, w.extractLsb' 8 8, w.extractLsb' 16 8, w.extractLsb' 24 8]

/-- The decoder on the bytes of a write to CMD, lowest address first: a command word is four bytes (R085), and the rest is
handed back. `none` where fewer than four bytes stand there: no such write exists (R064). -/
def decodeBytes : List Byte → Option (Except DecodeError Instr × List Byte)
  | b0 :: b1 :: b2 :: b3 :: rest => some (decode (b3 ++ b2 ++ b1 ++ b0), rest)
  | _ => none

/-- What the decoder reads from an instruction whose bits are w, numbered as spec/opcode_table.json numbers them, every
bit above nbits being 0. -/
def decodeTableWord (nbits w : Nat) : Option Instr :=
  match decodeBytes (cmdBytes (BitVec.ofNat 32 (w % 2 ^ nbits))) with
  | some (.ok i, _) => some i
  | _ => none

end Sys2Proof
end

