-- ==== Sys2Proof/Config.lean ====
section
/-! DEFINITION. What an implementation fixes and what the spec leaves free: the identification word, the sizes and the
address map, the implementation parameters with the spec's defaults (00_scope.md section 4), and the free values
(opaque constants: no proof can see one). -/

namespace Sys2Proof

/-- The hardwired value of the ID register (10_state.md R021). -/
def Config.idWord : Word := 0x51520107#32

/-- Base address and size of INBUF (20_memory.md R061). -/
def Config.inbufBase : Nat := 0x1000
def Config.inbufSize : Nat := 4096

/-- Base address and size of RSOUT (R061). -/
def Config.rsoutBase : Nat := 0x2000
def Config.rsoutSize : Nat := 32

/-- Base address of MATRIX and the number of its bytes that are storage (R061): 3917 = ceil(177² / 8). -/
def Config.matrixBase : Nat := 0x4000
def Config.matrixBytes : Nat := 3917

/-- The named parameters of an implementation that the block's results depend on (92_eei_decisions.md, Open parameters).
They are constant while a machine runs (log entry 5). -/
structure Config.Params where
  /-- PENALTY_WEIGHTS = (N1, N2, N3, N4) (47_mask_finish.md R157). -/
  n1 : Nat
  n2 : Nat
  n3 : Nat
  n4 : Nat
  /-- INITIAL_BEST: NONE or a natural number (R164). -/
  initialBest : Option Nat
  /-- VINFO_BEFORE_SCORE (R155). -/
  vinfoBeforeScore : Bool
deriving DecidableEq, Repr

/-- The defaults the spec gives the parameters: weights (3, 3, 40, 10), NONE, false (R157, R164, R155). -/
def Config.defaultParams : Config.Params :=
  { n1 := 3, n2 := 3, n3 := 40, n4 := 10, initialBest := none, vinfoBeforeScore := false }

/-- FREE VALUE: what the buffer byte at a host address holds from a reset on until it is written (R201, R075; log entry 3). The first
argument is the number of resets before, the second the address. -/
opaque Config.resetByte : Nat → Nat → Byte

/-- FREE VALUE: what one draw gives for a byte of RSOUT or MATRIX read while BUSY = 1 (R072; log entry 4). The first argument is the
number of the draw, the second the address. -/
opaque Config.freeByte : Nat → Nat → Byte

/-- FREE VALUE: what one draw gives for a result register read while BUSY = 1 (R072; log entry 4). -/
opaque Config.freeWord : Nat → Word

/-- FREE VALUE: LATENCY, the number of host steps between the acceptance of a command and its ENGINE step
(70_reset_and_hazards.md R210, R211; log entry 2). The argument is the number of the draw. -/
opaque Config.latency : Nat → Nat

end Sys2Proof
end

