-- ==== Sys2Proof/Machine/HostSyntax.lean ====
section
/-! DEFINITION. HASM, the notation a program of the HOST agent is written in (30_encoding.md R092): the widths of a bus
access, the statements, and a program as a list of statements with optional labels. -/

namespace Sys2Proof.Machine

/-- The width of a host access: 1, 2 or 4 bytes, no other exists (20_memory.md R063). -/
inductive Width where
  | w1
  | w2
  | w4
deriving DecidableEq, Repr

/-- The direction of a host access, part of a bus error's information (60_exceptions.md R188). -/
inductive Dir where
  | read
  | write
deriving DecidableEq, Repr

/-- One of the host scratch registers h0..h7 (R092). -/
abbrev HReg := Fin 8

/-- The name of a label; names are numbered (log entry 9). -/
abbrev Label := Nat

/-- What a HASM write statement writes: a constant, or the low bytes of a host register (R092). -/
inductive WriteSrc where
  | const (v : Word)
  | reg (r : HReg)
deriving DecidableEq, Repr

/-- A HASM statement (R092). -/
inductive HostStmt where
  /-- `wr8 A, V`, `wr16 A, V`, `wr32 A, V` and the forms with `hR`: one `MemWrite`. -/
  | wr (n : Width) (a : Addr) (v : WriteSrc)
  /-- `rd8 hR, A`, `rd16 hR, A`, `rd32 hR, A`: one `MemRead`, zero-extended. -/
  | rd (n : Width) (r : HReg) (a : Addr)
  /-- `li hR, V`. -/
  | li (r : HReg) (v : Word)
  /-- `addi hR, hS, V`. -/
  | addi (r s : HReg) (v : Word)
  /-- `andi hR, hS, V`. -/
  | andi (r s : HReg) (v : Word)
  /-- `beqz hR, L`. -/
  | beqz (r : HReg) (l : Label)
  /-- `bnez hR, L`. -/
  | bnez (r : HReg) (l : Label)
  /-- `bne hR, V, L`. -/
  | bne (r : HReg) (v : Word) (l : Label)
  /-- `jmp L`. -/
  | jmp (l : Label)
  /-- `halt`. -/
  | halt
deriving DecidableEq, Repr

/-- A statement with the labels `name:` that stand before it (R092). -/
structure HostLine where
  labels : List Label
  stmt : HostStmt
deriving DecidableEq, Repr

end Sys2Proof.Machine
end

