-- ==== Sys2Proof/Machine/State.lean ====
section
/-! DEFINITION. The state of the machine as plain data: every register of the register map (10_state.md R023), the command
latch PEND (R025), the three buffers (R043), the HOST agent with its program (30_encoding.md R092), the model's own scheduling
fields, the reset state (70_reset_and_hazards.md R200), and the reasons a step can stop. -/

namespace Sys2Proof.Machine

/-- The fields of CTRL (R026 to R029). Its reserved bits are no storage: they read 0 and ignore writes (R022). -/
structure Ctrl where
  ie : Bool
  strict : Bool
  movrEn : Bool
  movr : BitVec 4
  level : BitVec 3
deriving DecidableEq, Repr

/-- The stored fields of STATUS (R032 to R036). BUSY is a view of PEND, not separate storage (R025, R031). -/
structure Status where
  done : Bool
  overrun : Bool
  scoreValid : Bool
  truncated : Bool
  err : BitVec 4
  errInfo : BitVec 8
deriving DecidableEq, Repr

/-- The result registers (R040) and SCORE[0..7] (R041), each as wide as its field in R023. -/
structure Results where
  version : BitVec 6
  width : BitVec 8
  maskSel : BitVec 3
  nb1 : BitVec 8
  nb2 : BitVec 8
  dbLen : BitVec 8
  ebLen : BitVec 8
  capacity : BitVec 16
  effLen : BitVec 16
  fmtWord : BitVec 15
  verWord : BitVec 18
  dataCw : BitVec 16
  totalCw : BitVec 16
  score : Vector Word 8
deriving DecidableEq, Repr

/-- The HOST agent (R020, R092): its scratch registers h0..h7, its program and its place in it. -/
structure HostAgent where
  regs : Vector Word 8
  prog : List HostLine
  pos : Nat
deriving DecidableEq, Repr

/-- The whole machine: the block, the host that drives it, and the schedule of the agents. -/
structure State where
  /-- CTRL (R023, offset 0x004). -/
  ctrl : Ctrl
  /-- STATUS but for BUSY (offset 0x00C). -/
  status : Status
  /-- LEN (R038, offset 0x010). -/
  len : BitVec 16
  /-- VSEL (R039, offset 0x014). -/
  vsel : BitVec 6
  /-- ECCLEN (R039, offset 0x018). -/
  eccLen : BitVec 8
  /-- The result registers and SCORE (offsets 0x020 to 0x07C). -/
  res : Results
  /-- PEND: NONE or the accepted command word (R025). -/
  pend : Option Word
  /-- INBUF, RSOUT and MATRIX by host address (R061), in canonical form; an unlisted byte is unwritten (log entry 3). -/
  mem : List Host.Cell
  /-- The HOST agent. -/
  host : HostAgent
  /-- The implementation parameters, the same in every state of a run (log entry 5). -/
  params : Config.Params
  /-- Host steps left before the ENGINE step; read only while PEND ≠ NONE (R210; log entry 2). -/
  wait : Nat
  /-- Latencies already fixed for coming commands, oldest first (log entry 2). -/
  sched : List Nat
  /-- Steps of HOST or PLATFORM to each coming platform reset (R202; log entry 6). -/
  resets : List Nat
  /-- How many draws were made: the number of the next free value (log entry 4). -/
  draws : Nat
  /-- How many times the platform has reset the block: which draw of R201 the unwritten buffer bytes hold (log entry 3). -/
  resetCount : Nat
deriving DecidableEq, Repr

/-- Why a step stops with a fault. -/
inductive Fault where
  /-- A bus error (20_memory.md R071, 60_exceptions.md R188): raised by a HOST step whose access is to an unmapped address,
  or is a sub-word or misaligned register access, or a misaligned buffer access. A HASM program ends there (R092). Safe. -/
  | busError (addr : Addr) (width : Width) (dir : Dir)
deriving DecidableEq, Repr

/-- Why a step is refused. -/
inductive Refusal where
  /-- The instruction has no meaning in the model. No arm of exec says so any more. Safe. -/
  | notModelled (mnemonic : String)
  /-- Raised by a HOST step that branches to a label no statement of the program carries: an ill-formed HASM program, to
  which the spec gives no effect (log entry 9). Safe. -/
  | noSuchLabel (l : Label)
deriving DecidableEq, Repr

/-- CTRL after reset: 0 (R200). -/
def Ctrl.zero : Ctrl := { ie := false, strict := false, movrEn := false, movr := 0, level := 0 }

/-- STATUS after reset: 0 (R200). -/
def Status.zero : Status :=
  { done := false, overrun := false, scoreValid := false, truncated := false, err := 0, errInfo := 0 }

/-- The result registers and SCORE after reset: 0 (R200). -/
def Results.zero : Results :=
  { version := 0, width := 0, maskSel := 0, nb1 := 0, nb2 := 0, dbLen := 0, ebLen := 0, capacity := 0, effLen := 0,
    fmtWord := 0, verWord := 0, dataCw := 0, totalCw := 0, score := Vector.replicate 8 0 }

/-- A host that has no program: h0..h7 zero (DESIGN CHOICE, log entry 10), at the start of the empty program (log entry 1). -/
def HostAgent.idle : HostAgent := { regs := Vector.replicate 8 0, prog := [], pos := 0 }

/-- The machine right after reset (R200): every register 0, PEND = NONE, no buffer byte written (R201), no host program,
the default parameters. The model's own fields start empty (DESIGN CHOICE, log entries 1, 2, 3, 4, 6). -/
def State.reset : State :=
  { ctrl := Ctrl.zero, status := Status.zero, len := 0, vsel := 0, eccLen := 0, res := Results.zero, pend := none, mem := [],
    host := HostAgent.idle, params := Config.defaultParams, wait := 0, sched := [], resets := [], draws := 0,
    resetCount := 0 }

end Sys2Proof.Machine
end

