-- ==== Sys2Proof/Machine/Flags.lean ====
section
/-! DEFINITION. The flags of the block: the bits of STATUS (10_state.md R031 to R037, R048), the interrupt output (60_exceptions.md
R190), and the words the host reads and writes for STATUS and CTRL. -/

namespace Sys2Proof.Machine

/-- STATUS.BUSY = [PEND ≠ NONE] (R025, R031). -/
def State.busy (s : State) : Bool := s.pend.isSome

/-- IRQ = STATUS.DONE & CTRL.IE (60_exceptions.md R190). -/
def State.irq (s : State) : Bool := s.status.done && s.ctrl.ie

/-- STATUS as the host reads it: ERRINFO in 23:16, ERR in 11:8, TRUNCATED, SCORE_VALID, OVERRUN, DONE and BUSY in 4:0, the
reserved bits 0 (R022, R023). -/
def State.statusWord (s : State) : Word :=
  0#8 ++ s.status.errInfo ++ 0#4 ++ s.status.err ++ 0#3 ++ BitVec.ofBool s.status.truncated ++
    BitVec.ofBool s.status.scoreValid ++ BitVec.ofBool s.status.overrun ++ BitVec.ofBool s.status.done ++ BitVec.ofBool s.busy

/-- A host write to STATUS: DONE and OVERRUN are cleared where the written bit is 1; nothing else changes (R037). -/
def State.writeStatus (s : State) (v : Word) : State :=
  { s with status := { s.status with
      done := s.status.done && !v.getLsbD 1
      overrun := s.status.overrun && !v.getLsbD 2 } }

/-- A host write the block drops because BUSY = 1: only OVERRUN changes (R034, 70_reset_and_hazards.md R205). -/
def State.dropWrite (s : State) : State := { s with status := { s.status with overrun := true } }

/-- CTRL as the host reads it: LEVEL in 10:8, MOVR in 7:4, MOVR_EN, STRICT, IE in 2:0, the reserved bits 0 (R023). -/
def Ctrl.word (c : Ctrl) : Word :=
  0#21 ++ c.level ++ c.movr ++ 0#1 ++ BitVec.ofBool c.movrEn ++ BitVec.ofBool c.strict ++ BitVec.ofBool c.ie

/-- CTRL after a host write: each field exactly as written, reserved bits ignored (R022). -/
def Ctrl.ofWord (v : Word) : Ctrl :=
  { ie := v.getLsbD 0, strict := v.getLsbD 1, movrEn := v.getLsbD 2, movr := v.extractLsb' 4 4, level := v.extractLsb' 8 3 }

end Sys2Proof.Machine
end

