-- ==== Sys2Proof/Machine/Bitmap.lean ====
section
/-! DEFINITION. The bit arrays of the ENGINE's scratch state (10_state.md R044): entry i of the array is bit i of a number.
They hold module matrices (42_layout.md R117) and the exclusion bitmap (R118). -/

namespace Sys2Proof.Machine

/-- A bit array; entries past its end are 0. -/
abbrev Bitmap := Nat

/-- Entry i. -/
def Bitmap.get (b : Bitmap) (i : Nat) : Bool := Nat.testBit b i

/-- Make entry i 1. -/
def Bitmap.set (b : Bitmap) (i : Nat) : Bitmap := b ||| (1 <<< i)

/-- Invert entry i. -/
def Bitmap.flip (b : Bitmap) (i : Nat) : Bitmap := b ^^^ (1 <<< i)

/-- A module's coordinates (x, y), x the column and y the row (00_scope.md R005). -/
abbrev Cell := Nat × Nat

/-- The linear index x + y·w of a module (R005). -/
def cellIndex (w : Nat) (c : Cell) : Nat := c.1 + c.2 * w

/-- The cells (x, y) with x < nx and y < ny, row by row. -/
def gridCells (nx ny : Nat) : List Cell :=
  (List.range ny).flatMap fun y => (List.range nx).map fun x => (x, y)

/-- The value of module (x, y) of a matrix of width w. -/
def Bitmap.cell (m : Bitmap) (w : Nat) (c : Cell) : Bool := Bitmap.get m (cellIndex w c)

/-- `SetDark(x, y)` (42_layout.md R117). -/
def Bitmap.setDark (m : Bitmap) (w : Nat) (c : Cell) : Bitmap := Bitmap.set m (cellIndex w c)

/-- The distance |a − b| of two naturals. -/
def dist (a b : Nat) : Nat := (a - b) + (b - a)

end Sys2Proof.Machine
end

