-- ==== Sys2Proof/Machine/Rom.lean ====
section
/-! DEFINITION. The six constant tables of the ENGINE (10_state.md R042), entry by entry as the spec prints them. They are
ROM: no command writes them and reset does not change them. Each access function reads one entry by the spec's own index. -/

namespace Sys2Proof.Machine

/-- EXP[16·r + c], row r, column c (44_reed_solomon.md R138). EXP[255] is never read and is left out (log entry 15). -/
def Rom.expRows : List (List Nat) :=
  [[0x01, 0x02, 0x04, 0x08, 0x10, 0x20, 0x40, 0x80, 0x1D, 0x3A, 0x74, 0xE8, 0xCD, 0x87, 0x13, 0x26],
   [0x4C, 0x98, 0x2D, 0x5A, 0xB4, 0x75, 0xEA, 0xC9, 0x8F, 0x03, 0x06, 0x0C, 0x18, 0x30, 0x60, 0xC0],
   [0x9D, 0x27, 0x4E, 0x9C, 0x25, 0x4A, 0x94, 0x35, 0x6A, 0xD4, 0xB5, 0x77, 0xEE, 0xC1, 0x9F, 0x23],
   [0x46, 0x8C, 0x05, 0x0A, 0x14, 0x28, 0x50, 0xA0, 0x5D, 0xBA, 0x69, 0xD2, 0xB9, 0x6F, 0xDE, 0xA1],
   [0x5F, 0xBE, 0x61, 0xC2, 0x99, 0x2F, 0x5E, 0xBC, 0x65, 0xCA, 0x89, 0x0F, 0x1E, 0x3C, 0x78, 0xF0],
   [0xFD, 0xE7, 0xD3, 0xBB, 0x6B, 0xD6, 0xB1, 0x7F, 0xFE, 0xE1, 0xDF, 0xA3, 0x5B, 0xB6, 0x71, 0xE2],
   [0xD9, 0xAF, 0x43, 0x86, 0x11, 0x22, 0x44, 0x88, 0x0D, 0x1A, 0x34, 0x68, 0xD0, 0xBD, 0x67, 0xCE],
   [0x81, 0x1F, 0x3E, 0x7C, 0xF8, 0xED, 0xC7, 0x93, 0x3B, 0x76, 0xEC, 0xC5, 0x97, 0x33, 0x66, 0xCC],
   [0x85, 0x17, 0x2E, 0x5C, 0xB8, 0x6D, 0xDA, 0xA9, 0x4F, 0x9E, 0x21, 0x42, 0x84, 0x15, 0x2A, 0x54],
   [0xA8, 0x4D, 0x9A, 0x29, 0x52, 0xA4, 0x55, 0xAA, 0x49, 0x92, 0x39, 0x72, 0xE4, 0xD5, 0xB7, 0x73],
   [0xE6, 0xD1, 0xBF, 0x63, 0xC6, 0x91, 0x3F, 0x7E, 0xFC, 0xE5, 0xD7, 0xB3, 0x7B, 0xF6, 0xF1, 0xFF],
   [0xE3, 0xDB, 0xAB, 0x4B, 0x96, 0x31, 0x62, 0xC4, 0x95, 0x37, 0x6E, 0xDC, 0xA5, 0x57, 0xAE, 0x41],
   [0x82, 0x19, 0x32, 0x64, 0xC8, 0x8D, 0x07, 0x0E, 0x1C, 0x38, 0x70, 0xE0, 0xDD, 0xA7, 0x53, 0xA6],
   [0x51, 0xA2, 0x59, 0xB2, 0x79, 0xF2, 0xF9, 0xEF, 0xC3, 0x9B, 0x2B, 0x56, 0xAC, 0x45, 0x8A, 0x09],
   [0x12, 0x24, 0x48, 0x90, 0x3D, 0x7A, 0xF4, 0xF5, 0xF7, 0xF3, 0xFB, 0xEB, 0xCB, 0x8B, 0x0B, 0x16],
   [0x2C, 0x58, 0xB0, 0x7D, 0xFA, 0xE9, 0xCF, 0x83, 0x1B, 0x36, 0x6C, 0xD8, 0xAD, 0x47, 0x8E]]

/-- EXP[i] = α^i for i = 0..254 (R138). -/
def Rom.exp (i : Nat) : Byte := BitVec.ofNat 8 ((Rom.expRows.getD (i / 16) []).getD (i % 16) 0)

/-- LOG[16·r + c], row r, column c (R139). -/
def Rom.logRows : List (List Nat) :=
  [[0xFF, 0x00, 0x01, 0x19, 0x02, 0x32, 0x1A, 0xC6, 0x03, 0xDF, 0x33, 0xEE, 0x1B, 0x68, 0xC7, 0x4B],
   [0x04, 0x64, 0xE0, 0x0E, 0x34, 0x8D, 0xEF, 0x81, 0x1C, 0xC1, 0x69, 0xF8, 0xC8, 0x08, 0x4C, 0x71],
   [0x05, 0x8A, 0x65, 0x2F, 0xE1, 0x24, 0x0F, 0x21, 0x35, 0x93, 0x8E, 0xDA, 0xF0, 0x12, 0x82, 0x45],
   [0x1D, 0xB5, 0xC2, 0x7D, 0x6A, 0x27, 0xF9, 0xB9, 0xC9, 0x9A, 0x09, 0x78, 0x4D, 0xE4, 0x72, 0xA6],
   [0x06, 0xBF, 0x8B, 0x62, 0x66, 0xDD, 0x30, 0xFD, 0xE2, 0x98, 0x25, 0xB3, 0x10, 0x91, 0x22, 0x88],
   [0x36, 0xD0, 0x94, 0xCE, 0x8F, 0x96, 0xDB, 0xBD, 0xF1, 0xD2, 0x13, 0x5C, 0x83, 0x38, 0x46, 0x40],
   [0x1E, 0x42, 0xB6, 0xA3, 0xC3, 0x48, 0x7E, 0x6E, 0x6B, 0x3A, 0x28, 0x54, 0xFA, 0x85, 0xBA, 0x3D],
   [0xCA, 0x5E, 0x9B, 0x9F, 0x0A, 0x15, 0x79, 0x2B, 0x4E, 0xD4, 0xE5, 0xAC, 0x73, 0xF3, 0xA7, 0x57],
   [0x07, 0x70, 0xC0, 0xF7, 0x8C, 0x80, 0x63, 0x0D, 0x67, 0x4A, 0xDE, 0xED, 0x31, 0xC5, 0xFE, 0x18],
   [0xE3, 0xA5, 0x99, 0x77, 0x26, 0xB8, 0xB4, 0x7C, 0x11, 0x44, 0x92, 0xD9, 0x23, 0x20, 0x89, 0x2E],
   [0x37, 0x3F, 0xD1, 0x5B, 0x95, 0xBC, 0xCF, 0xCD, 0x90, 0x87, 0x97, 0xB2, 0xDC, 0xFC, 0xBE, 0x61],
   [0xF2, 0x56, 0xD3, 0xAB, 0x14, 0x2A, 0x5D, 0x9E, 0x84, 0x3C, 0x39, 0x53, 0x47, 0x6D, 0x41, 0xA2],
   [0x1F, 0x2D, 0x43, 0xD8, 0xB7, 0x7B, 0xA4, 0x76, 0xC4, 0x17, 0x49, 0xEC, 0x7F, 0x0C, 0x6F, 0xF6],
   [0x6C, 0xA1, 0x3B, 0x52, 0x29, 0x9D, 0x55, 0xAA, 0xFB, 0x60, 0x86, 0xB1, 0xBB, 0xCC, 0x3E, 0x5A],
   [0xCB, 0x59, 0x5F, 0xB0, 0x9C, 0xA9, 0xA0, 0x51, 0x0B, 0xF5, 0x16, 0xEB, 0x7A, 0x75, 0x2C, 0xD7],
   [0x4F, 0xAE, 0xD5, 0xE9, 0xE6, 0xE7, 0xAD, 0xE8, 0x74, 0xD6, 0xF4, 0xEA, 0xA8, 0x50, 0x58, 0xAF]]

/-- LOG[a]; LOG[0] = 255 is the sentinel (R139, R140). -/
def Rom.log (a : Byte) : Nat := (Rom.logRows.getD (a.toNat / 16) []).getD (a.toNat % 16) 0

/-- BLOCKS of versions 1 to 10: each version owns 16 bytes, (nb1, nb2, d, e) for L, M, Q, H (41_selector.md R111, R112). -/
def Rom.blockRows1 : List (List Nat) :=
  [[1, 0, 19, 7,  1, 0, 16, 10,  1, 0, 13, 13,  1, 0, 9, 17],
   [1, 0, 34, 10,  1, 0, 28, 16,  1, 0, 22, 22,  1, 0, 16, 28],
   [1, 0, 55, 15,  1, 0, 44, 26,  2, 0, 17, 18,  2, 0, 13, 22],
   [1, 0, 80, 20,  2, 0, 32, 18,  2, 0, 24, 26,  4, 0, 9, 16],
   [1, 0, 108, 26,  2, 0, 43, 24,  2, 2, 15, 18,  2, 2, 11, 22],
   [2, 0, 68, 18,  4, 0, 27, 16,  4, 0, 19, 24,  4, 0, 15, 28],
   [2, 0, 78, 20,  4, 0, 31, 18,  2, 4, 14, 18,  4, 1, 13, 26],
   [2, 0, 97, 24,  2, 2, 38, 22,  4, 2, 18, 22,  4, 2, 14, 26],
   [2, 0, 116, 30,  3, 2, 36, 22,  4, 4, 16, 20,  4, 4, 12, 24],
   [2, 2, 68, 18,  4, 1, 43, 26,  6, 2, 19, 24,  6, 2, 15, 28]]

/-- BLOCKS of versions 11 to 20: each version owns 16 bytes, (nb1, nb2, d, e) for L, M, Q, H (41_selector.md R111, R112). -/
def Rom.blockRows2 : List (List Nat) :=
  [[4, 0, 81, 20,  1, 4, 50, 30,  4, 4, 22, 28,  3, 8, 12, 24],
   [2, 2, 92, 24,  6, 2, 36, 22,  4, 6, 20, 26,  7, 4, 14, 28],
   [4, 0, 107, 26,  8, 1, 37, 22,  8, 4, 20, 24,  12, 4, 11, 22],
   [3, 1, 115, 30,  4, 5, 40, 24,  11, 5, 16, 20,  11, 5, 12, 24],
   [5, 1, 87, 22,  5, 5, 41, 24,  5, 7, 24, 30,  11, 7, 12, 24],
   [5, 1, 98, 24,  7, 3, 45, 28,  15, 2, 19, 24,  3, 13, 15, 30],
   [1, 5, 107, 28,  10, 1, 46, 28,  1, 15, 22, 28,  2, 17, 14, 28],
   [5, 1, 120, 30,  9, 4, 43, 26,  17, 1, 22, 28,  2, 19, 14, 28],
   [3, 4, 113, 28,  3, 11, 44, 26,  17, 4, 21, 26,  9, 16, 13, 26],
   [3, 5, 107, 28,  3, 13, 41, 26,  15, 5, 24, 30,  15, 10, 15, 28]]

/-- BLOCKS of versions 21 to 30: each version owns 16 bytes, (nb1, nb2, d, e) for L, M, Q, H (41_selector.md R111, R112). -/
def Rom.blockRows3 : List (List Nat) :=
  [[4, 4, 116, 28,  17, 0, 42, 26,  17, 6, 22, 28,  19, 6, 16, 30],
   [2, 7, 111, 28,  17, 0, 46, 28,  7, 16, 24, 30,  34, 0, 13, 24],
   [4, 5, 121, 30,  4, 14, 47, 28,  11, 14, 24, 30,  16, 14, 15, 30],
   [6, 4, 117, 30,  6, 14, 45, 28,  11, 16, 24, 30,  30, 2, 16, 30],
   [8, 4, 106, 26,  8, 13, 47, 28,  7, 22, 24, 30,  22, 13, 15, 30],
   [10, 2, 114, 28,  19, 4, 46, 28,  28, 6, 22, 28,  33, 4, 16, 30],
   [8, 4, 122, 30,  22, 3, 45, 28,  8, 26, 23, 30,  12, 28, 15, 30],
   [3, 10, 117, 30,  3, 23, 45, 28,  4, 31, 24, 30,  11, 31, 15, 30],
   [7, 7, 116, 30,  21, 7, 45, 28,  1, 37, 23, 30,  19, 26, 15, 30],
   [5, 10, 115, 30,  19, 10, 47, 28,  15, 25, 24, 30,  23, 25, 15, 30]]

/-- BLOCKS of versions 31 to 40: each version owns 16 bytes, (nb1, nb2, d, e) for L, M, Q, H (41_selector.md R111, R112). -/
def Rom.blockRows4 : List (List Nat) :=
  [[13, 3, 115, 30,  2, 29, 46, 28,  42, 1, 24, 30,  23, 28, 15, 30],
   [17, 0, 115, 30,  10, 23, 46, 28,  10, 35, 24, 30,  19, 35, 15, 30],
   [17, 1, 115, 30,  14, 21, 46, 28,  29, 19, 24, 30,  11, 46, 15, 30],
   [13, 6, 115, 30,  14, 23, 46, 28,  44, 7, 24, 30,  59, 1, 16, 30],
   [12, 7, 121, 30,  12, 26, 47, 28,  39, 14, 24, 30,  22, 41, 15, 30],
   [6, 14, 121, 30,  6, 34, 47, 28,  46, 10, 24, 30,  2, 64, 15, 30],
   [17, 4, 122, 30,  29, 14, 46, 28,  49, 10, 24, 30,  24, 46, 15, 30],
   [4, 18, 122, 30,  13, 32, 46, 28,  48, 14, 24, 30,  42, 32, 15, 30],
   [20, 4, 117, 30,  40, 7, 47, 28,  43, 22, 24, 30,  10, 67, 15, 30],
   [19, 6, 118, 30,  18, 31, 47, 28,  34, 34, 24, 30,  20, 61, 15, 30]]

/-- The rows of BLOCKS, version 1 first (R112). -/
def Rom.blockRows : List (List Nat) := Rom.blockRows1 ++ Rom.blockRows2 ++ Rom.blockRows3 ++ Rom.blockRows4

/-- BLOCKS[i] for i = 0..639 (R111). -/
def Rom.blocks (i : Nat) : Nat := (Rom.blockRows.getD (i / 16) []).getD (i % 16) 0

/-- ALIGN_STEP[0..40] (42_layout.md R124); entries 0 and 1 are never read. -/
def Rom.alignSteps : List Nat :=
  [0, 11, 15, 19, 23, 27, 31, 16, 18, 20, 22, 24, 26, 28, 20, 22, 24, 24, 26, 28, 28,
   22, 24, 24, 26, 26, 28, 28, 24, 24, 26, 26, 26, 28, 28, 24, 26, 26, 26, 28, 28]

/-- ALIGN_STEP[v] (R124). -/
def Rom.alignStep (v : Nat) : Nat := Rom.alignSteps.getD v 0

/-- FORMAT, one row of eight masks per level L, M, Q, H (47_mask_finish.md R165). -/
def Rom.formatRows : List (List Nat) :=
  [[0x77C4, 0x72F3, 0x7DAA, 0x789D, 0x662F, 0x6318, 0x6C41, 0x6976],
   [0x5412, 0x5125, 0x5E7C, 0x5B4B, 0x45F9, 0x40CE, 0x4F97, 0x4AA0],
   [0x355F, 0x3068, 0x3F31, 0x3A06, 0x24B4, 0x2183, 0x2EDA, 0x2BED],
   [0x1689, 0x13BE, 0x1CE7, 0x19D0, 0x0762, 0x0255, 0x0D0C, 0x083B]]

/-- FORMAT[i] for i = k + (lvl − 1)·8 (R165). -/
def Rom.format (i : Nat) : BitVec 15 := BitVec.ofNat 15 ((Rom.formatRows.getD (i / 8) []).getD (i % 8) 0)

/-- VINFO[7..40] in order (R167). -/
def Rom.vinfoWords : List Nat :=
  [0x07C94, 0x085BC, 0x09A99, 0x0A4D3, 0x0BBF6, 0x0C762, 0x0D847, 0x0E60D, 0x0F928,
   0x10B78, 0x1145D, 0x12A17, 0x13532, 0x149A6, 0x15683, 0x168C9, 0x177EC, 0x18EC4,
   0x191E1, 0x1AFAB, 0x1B08E, 0x1CC1A, 0x1D33F, 0x1ED75, 0x1F250, 0x209D5, 0x216F0,
   0x228BA, 0x2379F, 0x24B0B, 0x2542E, 0x26A64, 0x27541, 0x28C69]

/-- VINFO[v] for v = 7..40 (R167). -/
def Rom.vinfo (v : Nat) : BitVec 18 := BitVec.ofNat 18 (Rom.vinfoWords.getD (v - 7) 0)

end Sys2Proof.Machine
end

