-- ==== Sys2Proof/Machine/Selector.lean ====
section
/-! DEFINITION. Stage S1, the version and block selector (41_selector.md R110 to R116). -/

namespace Sys2Proof.Machine

/-- A block configuration (nb1, nb2, d, e) (R110): nb1 short blocks of d data bytes, nb2 long blocks of d + 1, and e ECC bytes
in every block. -/
structure BlockCfg where
  nb1 : Nat
  nb2 : Nat
  d : Nat
  e : Nat
deriving DecidableEq, Repr

/-- The width 17 + 4·v of a symbol of version v (00_scope.md section 4). -/
def symbolWidth (v : Nat) : Nat := 17 + 4 * v

/-- `Lookup(lvl, v)` for lvl in 1..4 and v in 1..40 (R111). -/
def lookupCfg (lvl v : Nat) : BlockCfg :=
  let i := (lvl - 1) * 4 + (v - 1) * 16
  { nb1 := Rom.blocks i, nb2 := Rom.blocks (i + 1), d := Rom.blocks (i + 2), e := Rom.blocks (i + 3) }

/-- The number of blocks of a symbol. -/
def numBlocks (c : BlockCfg) : Nat := c.nb1 + c.nb2

/-- M(cfg), the data codewords (R113). -/
def dataCodewords (c : BlockCfg) : Nat := c.d * (c.nb1 + c.nb2) + c.nb2

/-- T(cfg), the total codewords (R113). -/
def totalCodewords (c : BlockCfg) : Nat := (c.d + c.e) * (c.nb1 + c.nb2) + c.nb2

/-- CAP(v, cfg) = M(cfg) − 3 + [v ≤ 9], the input bytes version v holds (R114). -/
def capacityOf (v : Nat) (c : BlockCfg) : Nat := dataCodewords c - 3 + (if v ≤ 9 then 1 else 0)

/-- What S1 returns: the version, its configuration, and whether the input fits (R110). -/
structure Selection where
  v : Nat
  cfg : BlockCfg
  fits : Bool
deriving DecidableEq, Repr

/-- The versions v, v + 1, … tried in order, `fuel` of them; version 40 is forced where none holds the input (R115). -/
def selectFrom (n lvl : Nat) : Nat → Nat → Selection
  | 0, _ => { v := 40, cfg := lookupCfg lvl 40, fits := false }
  | fuel + 1, v =>
    if n ≤ capacityOf v (lookupCfg lvl v) then { v := v, cfg := lookupCfg lvl v, fits := true }
    else selectFrom n lvl fuel (v + 1)

/-- `Select(n, lvl)`: the smallest version whose capacity admits n (R115). -/
def selectVersion (n lvl : Nat) : Selection := selectFrom n lvl 40 1

/-- The number of input bytes encoded, min(n, M − 2 − [v > 9]) (43_codeword.md R133), which is min(n, CAP(v, cfg)). -/
def encodedLength (n v : Nat) (c : BlockCfg) : Nat := min n (dataCodewords c - 2 - (if v > 9 then 1 else 0))

end Sys2Proof.Machine
end

