-- ==== Sys2Proof/Machine/Layout.lean ====
section
/-! DEFINITION. Stage S2, the matrix layout engine (42_layout.md R117 to R130). -/

namespace Sys2Proof.Machine

/-- The two scratch structures of S2: the module matrix MOD (R117) and the exclusion bitmap EXCL (R118). -/
structure Scratch where
  mod : Bitmap
  excl : Bitmap
deriving DecidableEq, Repr

/-- xbit(x, y), the symmetric address of a cell in EXCL: (y + y²) >> 1, plus x, for x ≤ y after the swap (R118). -/
def xbit (c : Cell) : Nat :=
  if c.1 > c.2 then ((c.1 + c.1 * c.1) >>> 1) + c.2 else ((c.2 + c.2 * c.2) >>> 1) + c.1

/-- `IsReserved(x, y)` (R118). -/
def isReserved (excl : Bitmap) (c : Cell) : Bool := Bitmap.get excl (xbit c)

/-- `Reserve(x, y)` for every cell of a list (R118). -/
def reserveAll (s : Scratch) (cs : List Cell) : Scratch :=
  { s with excl := cs.foldl (fun e c => Bitmap.set e (xbit c)) s.excl }

/-- `SetDark(x, y)` for every cell of a list, in a symbol of width w (R117). -/
def darkAll (w : Nat) (s : Scratch) (cs : List Cell) : Scratch :=
  { s with mod := cs.foldl (fun m c => Bitmap.setDark m w c) s.mod }

/-- A cell of a list moved by (ox, oy). -/
def moveBy (ox oy : Nat) (cs : List Cell) : List Cell := cs.map fun c => (ox + c.1, oy + c.2)

/-- The Chebyshev distance of (dx, dy) from the centre (r, r) of a square of side 2·r + 1. -/
def ringOf (r : Nat) (c : Cell) : Nat := max (dist c.1 r) (dist c.2 r)

/-- The cells of a finder pattern that are dark: the outer ring and the 3×3 core (R120). -/
def finderDark : List Cell := (gridCells 7 7).filter fun c => ringOf 3 c = 3 || ringOf 3 c ≤ 1

/-- The light inner ring of a finder pattern (R120). -/
def finderLight : List Cell := (gridCells 7 7).filter fun c => !(ringOf 3 c = 3 || ringOf 3 c ≤ 1)

/-- One finder pattern with its top-left corner at (o.1, o.2) (R120). -/
def drawFinder (w : Nat) (s : Scratch) (o : Cell) : Scratch :=
  reserveAll (darkAll w s (moveBy o.1 o.2 finderDark)) (moveBy o.1 o.2 finderLight)

/-- The three finder corners (R120). -/
def finderCorners (w : Nat) : List Cell := [(0, 0), (w - 7, 0), (0, w - 7)]

/-- Step 2 (R120). -/
def drawFinders (w : Nat) (s : Scratch) : Scratch := (finderCorners w).foldl (drawFinder w) s

/-- The outer separators (R121). -/
def separatorCells (w : Nat) : List Cell :=
  (List.range 8).flatMap fun k =>
    [(k, 7), (7, k), (w - 8 + k, 7), (w - 8, k), (k, w - 8), (7, w - 8 + k)]

/-- Step 3 (R121). -/
def drawSeparators (w : Nat) (s : Scratch) : Scratch := reserveAll s (separatorCells w)

/-- The dark cells of a 5×5 alignment pattern: the outer ring and the centre (R122). -/
def alignDark : List Cell := (gridCells 5 5).filter fun c => ringOf 2 c ≠ 1

/-- Its light ring (R122). -/
def alignLight : List Cell := (gridCells 5 5).filter fun c => ringOf 2 c = 1

/-- `DrawAlignment(cx, cy)`; every centre has cx, cy ≥ 2 (R122). -/
def drawAlignment (w : Nat) (s : Scratch) (c : Cell) : Scratch :=
  reserveAll (darkAll w s (moveBy (c.1 - 2) (c.2 - 2) alignDark)) (moveBy (c.1 - 2) (c.2 - 2) alignLight)

/-- The inner walk of R125 along row y from column x leftward; `fuel` bounds the number of centres. -/
def alignRow (t y : Nat) : Nat → Nat → List Cell
  | 0, _ => []
  | fuel + 1, x =>
    if x > t - 3 then (x, y) :: (if x < t then [] else alignRow t y fuel (x - t)) else []

/-- The outer walk of R125 from row y upward; `fuel` bounds the number of rows. -/
def alignRows (t w : Nat) : Nat → Nat → List Cell
  | 0, _ => []
  | fuel + 1, y =>
    alignRow t y w (w - 7) ++
      (if y ≤ t + 9 then [] else [(6, y - t), (y - t, 6)] ++ alignRows t w fuel (y - t))

/-- The centres of the alignment patterns in the order the walk draws them; version 1 has none (R123, R125). -/
def alignCentres (v : Nat) : List Cell :=
  if v > 1 then alignRows (Rom.alignStep v) (symbolWidth v) (symbolWidth v) (symbolWidth v - 7) else []

/-- Step 4 (R122 to R125). -/
def drawAlignments (v : Nat) (s : Scratch) : Scratch := (alignCentres v).foldl (drawAlignment (symbolWidth v)) s

/-- The coordinates k = 8..w−9 of the timing patterns (R126). -/
def timingRange (w : Nat) : List Nat := (List.range (w - 16)).map (8 + ·)

/-- The dark cells of the timing patterns: even k (R126). -/
def timingDark (w : Nat) : List Cell :=
  ((timingRange w).filter fun k => k % 2 = 0).flatMap fun k => [(k, 6), (6, k)]

/-- Their light cells: odd k (R126). -/
def timingLight (w : Nat) : List Cell :=
  ((timingRange w).filter fun k => k % 2 ≠ 0).flatMap fun k => [(k, 6), (6, k)]

/-- Step 5 (R126). -/
def drawTiming (w : Nat) (s : Scratch) : Scratch := reserveAll (darkAll w s (timingDark w)) (timingLight w)

/-- The cells of the two format strips (R127). -/
def formatCells (w : Nat) : List Cell :=
  ((List.range 9).flatMap fun k => [(k, 8), (8, k)]) ++
  ((List.range 8).map fun k => (w - 1 - k, 8)) ++
  ((List.range 7).map fun k => (8, w - 1 - k))

/-- Step 6 (R127). -/
def drawFormat (w : Nat) (s : Scratch) : Scratch := reserveAll s (formatCells w)

/-- The cell of bit j of the version word in the bottom-left block: column j div 3, row w − 11 + (j mod 3) (R128, R167). -/
def versionCell (w j : Nat) : Cell := (j / 3, w - 11 + j % 3)

/-- The transpose of a cell. -/
def transpose (c : Cell) : Cell := (c.2, c.1)

/-- The cells of the two version blocks (R128). -/
def versionCells (w : Nat) : List Cell :=
  (List.range 18).flatMap fun j => [versionCell w j, transpose (versionCell w j)]

/-- Step 7, for v ≥ 7 only (R128). -/
def drawVersion (v : Nat) (s : Scratch) : Scratch :=
  if v ≥ 7 then reserveAll s (versionCells (symbolWidth v)) else s

/-- The fixed dark module (8, w − 8) (R129). -/
def darkModule (w : Nat) : Cell := (8, w - 8)

/-- Step 8 (R129). -/
def drawDarkModule (w : Nat) (s : Scratch) : Scratch := darkAll w s [darkModule w]

/-- Step 9: every cell that is dark by now is reserved (R130). -/
def reserveDark (w : Nat) (s : Scratch) : Scratch :=
  reserveAll s ((gridCells w w).filter fun c => Bitmap.cell s.mod w c)

/-- `Layout(v)`: steps 1 to 9 in order (R119). -/
def layout (v : Nat) : Scratch :=
  let w := symbolWidth v
  reserveDark w (drawDarkModule w (drawVersion v (drawFormat w (drawTiming w (drawAlignments v
    (drawSeparators w (drawFinders w { mod := 0, excl := 0 })))))))

end Sys2Proof.Machine
end

