-- ==== Sys2Proof/Machine/MaskFinish.lean ====
section
/-! DEFINITION. Stage S7, the mask selector and finisher (47_mask_finish.md R154 to R171). -/

namespace Sys2Proof.Machine

/-- `MaskPred(k, x, y)` for k = 0..7 (R154). -/
def maskPred (k : Nat) (c : Cell) : Bool :=
  let x := c.1
  let y := c.2
  match k with
  | 0 => (x + y) % 2 = 0
  | 1 => y % 2 = 0
  | 2 => x % 3 = 0
  | 3 => (x + y) % 3 = 0
  | 4 => (x / 3 + y / 2) % 2 = 0
  | 5 => (x * y) % 2 + (x * y) % 3 = 0
  | 6 => ((x * y) % 2 + (x * y) % 3) % 2 = 0
  | _ => ((x + y) % 2 + (x * y) % 3) % 2 = 0

/-- `ApplyMask(P, k)`: every non-reserved cell where predicate k holds is inverted (R156). -/
def applyMask (excl : Bitmap) (w : Nat) (p : Bitmap) (k : Nat) : Bitmap :=
  (gridCells w w).foldl
    (fun q c => if maskPred k c && !isReserved excl c then Bitmap.flip q (cellIndex w c) else q) p

/-- Row y of a matrix, read by increasing column (R159). -/
def matrixRow (q : Bitmap) (w y : Nat) : List Bool := (List.range w).map fun x => Bitmap.cell q w (x, y)

/-- Column x of a matrix, read by increasing row (R159). -/
def matrixCol (q : Bitmap) (w x : Nat) : List Bool := (List.range w).map fun y => Bitmap.cell q w (x, y)

/-- The runs of the rest of a line inside a run of colour `b` that is `len` long so far (R159). -/
def runsFrom : Bool → Nat → List Bool → List Nat
  | _, len, [] => [len]
  | b, len, c :: cs => if c = b then runsFrom b (len + 1) cs else len :: runsFrom c 1 cs

/-- The run vector r[0..h] of a line: r[0] is the leading light run, 0 where the line starts dark (R159). -/
def runs (line : List Bool) : List Nat := runsFrom false 0 line

/-- The run term of one line: N1 plus the excess over 5 for every run of 5 or more (R160). -/
def runPenalty (p : Config.Params) (r : List Nat) : Nat :=
  (r.map fun n => if n ≥ 5 then p.n1 + (n - 5) else 0).sum

/-- The test of the finder-like term at the dark run r[i] of a line whose last run is r[h] (R161). -/
def finderLike (r : List Nat) (h i : Nat) : Bool :=
  let at' := fun j => r.getD j 0
  at' (i - 2) = at' (i + 2) && at' (i + 2) = at' (i - 1) && at' (i - 1) = at' (i + 1) &&
  3 * at' (i - 1) = at' i &&
  (at' (i - 3) = 0 || i + 3 > h || 3 * at' (i - 3) ≥ 4 * at' i || 3 * at' (i + 3) ≥ 4 * at' i)

/-- The finder-like term of one line: N3 for every odd i = 3, 5, … below h − 1 that passes the test (R161). -/
def finderPenalty (p : Config.Params) (r : List Nat) : Nat :=
  let h := r.length - 1
  ((List.range h).filter fun i => i % 2 = 1 && 3 ≤ i && i < h - 1 && finderLike r h i).length * p.n3

/-- The run and finder-like terms of one line (R163). -/
def linePenalty (p : Config.Params) (line : List Bool) : Nat :=
  runPenalty p (runs line) + finderPenalty p (runs line)

/-- Do the four cells of the 2×2 window with top-left cell c hold the same value (R158)? -/
def sameWindow (q : Bitmap) (w : Nat) (c : Cell) : Bool :=
  let v := Bitmap.cell q w c
  Bitmap.cell q w (c.1 + 1, c.2) = v && Bitmap.cell q w (c.1, c.2 + 1) = v && Bitmap.cell q w (c.1 + 1, c.2 + 1) = v

/-- The block term B(Q) (R158). -/
def blockPenalty (p : Config.Params) (q : Bitmap) (w : Nat) : Nat :=
  p.n2 * ((gridCells (w - 1) (w - 1)).filter (sameWindow q w)).length

/-- The number of dark cells of a matrix (R162). -/
def darkCount (q : Bitmap) (w : Nat) : Nat := ((gridCells w w).filter fun c => Bitmap.cell q w c).length

/-- The loop of R162: how often w² is taken from `big` while it is above w²; `fuel` bounds the rounds. -/
def imbalanceRounds (area : Nat) : Nat → Nat → Nat
  | 0, _ => 0
  | fuel + 1, big => if big > area then imbalanceRounds area fuel (big - area) + 1 else 0

/-- The imbalance term Imb(Q): |bw| is the distance of the dark and the light count; at most 9 rounds happen (R162). -/
def imbalancePenalty (p : Config.Params) (q : Bitmap) (w : Nat) : Nat :=
  let dark := darkCount q w
  p.n4 * imbalanceRounds (w * w) 10 (10 * dist dark (w * w - dark))

/-- The badness score of a candidate matrix (R163). -/
def score (p : Config.Params) (q : Bitmap) (w : Nat) : Nat :=
  blockPenalty p q w +
  ((List.range w).map fun y => linePenalty p (matrixRow q w y)).sum +
  ((List.range w).map fun x => linePenalty p (matrixCol q w x)).sum +
  imbalancePenalty p q w

/-- One candidate of the search: a strictly lower score replaces the current best, an equal one does not (R164). -/
def betterMask (acc : Option Nat × Nat) (cand : Nat × Nat) : Option Nat × Nat :=
  match acc.1 with
  | none => (some cand.1, cand.2)
  | some best => if cand.1 < best then (some cand.1, cand.2) else acc

/-- The mask the search keeps, given INITIAL_BEST and the scores in mask order (R164). -/
def bestMask (initialBest : Option Nat) (scores : List Nat) : Nat :=
  (scores.zipIdx.foldl betterMask (initialBest, 0)).2

/-- The eight scores s[0..7] of the search (R164). -/
def maskScores (p : Config.Params) (excl : Bitmap) (w : Nat) (pre : Bitmap) : List Nat :=
  (List.range 8).map fun j => score p (applyMask excl w pre j) w

/-- The cells of the two copies that carry bit k of the format word (R166). -/
def formatCopies (w k : Nat) : List Cell :=
  let copy1 : Cell :=
    if k ≤ 5 then (8, k) else if k = 6 then (8, 7) else if k = 7 then (8, 8) else if k = 8 then (7, 8) else (14 - k, 8)
  let copy2 : Cell := if k ≤ 7 then (w - 1 - k, 8) else (8, w - 15 + k)
  [copy1, copy2]

/-- `WriteFormat(Q, f)` (R166). -/
def writeFormat (q : Bitmap) (w : Nat) (f : BitVec 15) : Bitmap :=
  (((List.range 15).filter fun k => f.getLsbD k).flatMap (formatCopies w)).foldl (fun m c => Bitmap.setDark m w c) q

/-- `WriteVersion(Q, v)` for v ≥ 7 (R167). -/
def writeVersion (q : Bitmap) (v : Nat) : Bitmap :=
  let w := symbolWidth v
  (((List.range 18).filter fun j => (Rom.vinfo v).getLsbD j).flatMap
    fun j => [versionCell w j, transpose (versionCell w j)]).foldl (fun m c => Bitmap.setDark m w c) q

/-- PRE, the pre-mask buffer (R155, step 1 of R168). -/
def preMask (p : Config.Params) (mod : Bitmap) (v : Nat) : Bitmap :=
  if p.vinfoBeforeScore ∧ v ≥ 7 then writeVersion mod v else mod

/-- What S7 returns (R168); `scores` is empty where an override was applied. -/
structure Finished where
  mod : Bitmap
  mask : Nat
  scores : List Nat
  fmt : BitVec 15
  ver : BitVec 18
deriving DecidableEq, Repr

/-- The finisher on the chosen mask: steps 3 to 6 of R168. -/
def finishWith (p : Config.Params) (pre excl : Bitmap) (v lvl k : Nat) (scores : List Nat) : Finished :=
  let w := symbolWidth v
  let fmt := Rom.format (k + (lvl - 1) * 8)
  let q := writeFormat (applyMask excl w pre k) w fmt
  if v ≥ 7 then
    { mod := if p.vinfoBeforeScore then q else writeVersion q v, mask := k, scores := scores, fmt := fmt, ver := Rom.vinfo v }
  else { mod := q, mask := k, scores := scores, fmt := fmt, ver := 0 }

/-- `MaskFinish(MOD, EXCL, v, lvl, movr_en, movr)` (R168); `override` is `some movr` where MOVR_EN = 1, and then no score
is computed (R164). -/
def maskFinish (p : Config.Params) (mod excl : Bitmap) (v lvl : Nat) (override : Option Nat) : Finished :=
  let pre := preMask p mod v
  match override with
  | some k => finishWith p pre excl v lvl k []
  | none =>
    let scores := maskScores p excl (symbolWidth v) pre
    finishWith p pre excl v lvl (bestMask p.initialBest scores) scores

/-- Byte b of `PackMatrix(Q, w)`: module 8b + t in bit t, 0 at and above w² (R170). -/
def matrixByte (q : Bitmap) (w b : Nat) : Byte :=
  BitVec.ofNat 8 (((List.range 8).filter fun t => 8 * b + t < w * w && Bitmap.get q (8 * b + t)).map (2 ^ ·)).sum

/-- `PackMatrix(Q, w)`: all 3917 bytes of MATRIX (R170). -/
def packMatrix (q : Bitmap) (w : Nat) : List Byte := (List.range Config.matrixBytes).map (matrixByte q w)

end Sys2Proof.Machine
end

