-- ==== Sys2Proof/Machine/Memory.lean ====
section
/-! DEFINITION. The buffer memory as a list of (address, byte) pairs in one canonical form, and its two operations. A byte
that is not listed is unwritten: it has no value of its own (70_reset_and_hazards.md R201; log entry 3). -/

namespace Sys2Proof.Machine

/-- Buffer bytes by host address. -/
abbrev Memory := List Host.Cell

/-- Is a host address one of the bytes of INBUF (20_memory.md R061)? -/
def isInbuf (a : Nat) : Bool := Config.inbufBase ≤ a && a < Config.inbufBase + Config.inbufSize

/-- Is it one of the bytes of RSOUT (R061)? -/
def isRsout (a : Nat) : Bool := Config.rsoutBase ≤ a && a < Config.rsoutBase + Config.rsoutSize

/-- Is it one of the 3917 bytes of MATRIX that are storage (R061)? -/
def isMatrix (a : Nat) : Bool := Config.matrixBase ≤ a && a < Config.matrixBase + Config.matrixBytes

/-- The addresses that are storage: the three buffers and nothing else (R061). -/
def isStorage (a : Nat) : Bool := isInbuf a || isRsout a || isMatrix a

/-- The byte written at an address, none where nothing has written it. -/
def Memory.get? : Memory → Nat → Option Byte
  | [], _ => none
  | (k, b) :: m, a => if k = a then some b else Memory.get? m a

/-- The cells of a run of bytes from an address upward. -/
def Memory.cells : Nat → List Byte → Memory
  | _, [] => []
  | a, b :: bs => (a, b) :: Memory.cells (a + 1) bs

/-- Write a run of bytes from an address upward. -/
def Memory.write (m : Memory) (a : Nat) (bs : List Byte) : Memory :=
  m.filter (fun c => c.1 < a) ++ Memory.cells a bs ++ m.filter (fun c => a + bs.length ≤ c.1)

/-- Addresses strictly rise along the list. -/
def Memory.rising : Memory → Bool
  | [] => true
  | [_] => true
  | (a, _) :: (b, x) :: m => a < b && Memory.rising ((b, x) :: m)

/-- The canonical form: addresses strictly rise, and only storage is listed. An unlisted byte reads as no value, so no entry
can equal it. -/
def Memory.wf (m : Memory) : Bool := Memory.rising m && m.all (fun c => isStorage c.1)

end Sys2Proof.Machine
end

