-- ==== Sys2Proof/Machine/Operands.lean ====
section
/-! DEFINITION. The operands of the commands: fields of the host-written registers, read unsigned, and the bytes of INBUF
(30_encoding.md R090, R091). -/

namespace Sys2Proof.Machine

/-- The level operand, CTRL.LEVEL (R090). -/
def State.lvl (s : State) : Nat := s.ctrl.level.toNat

/-- L = 1, M = 2, Q = 3, H = 4; every other level is illegal (10_state.md R029). -/
def levelLegal (lvl : Nat) : Bool := 1 ≤ lvl && lvl ≤ 4

/-- `maskOverride`: absent where MOVR_EN = 0, and then MOVR is not read (10_state.md R028). -/
def State.maskOverride (s : State) : Option Nat := if s.ctrl.movrEn then some s.ctrl.movr.toNat else none

/-- The length operand, LEN (R090). -/
def State.inputLen (s : State) : Nat := s.len.toNat

/-- The version operand of LOOKUP, VSEL (R090). -/
def State.versionSel (s : State) : Nat := s.vsel.toNat

/-- The ECC length operand of RSENC, ECCLEN (R090). -/
def State.eccCount (s : State) : Nat := s.eccLen.toNat

/-- The content of a buffer byte: what was written there, else the value it holds since the last reset, a free draw
(20_memory.md R075, 70_reset_and_hazards.md R201; log entry 3). -/
def State.memByte (s : State) (a : Nat) : Byte :=
  (Memory.get? s.mem a).getD (Config.resetByte s.resetCount a)

/-- INBUF[0..n−1] as a command reads it (20_memory.md R074). -/
def State.inbufBytes (s : State) (n : Nat) : List Byte :=
  (List.range n).map fun k => s.memByte (Config.inbufBase + k)

/-- Have the first n bytes of INBUF been written since reset (70_reset_and_hazards.md R203)? -/
def State.inbufWritten (s : State) (n : Nat) : Bool :=
  (List.range n).all fun k => (Memory.get? s.mem (Config.inbufBase + k)).isSome

end Sys2Proof.Machine
end

