-- ==== Sys2Proof/Machine/Ops.lean ====
section
/-! DEFINITION. The shared operations on the state: accepting a command (40_commands.md R100), raising an error (60_exceptions.md
R183) and completing a command (R101), writing results back (R107), and the reset of the block (70_reset_and_hazards.md R200). -/

namespace Sys2Proof.Machine

/-- The latency of the command accepted next: the oldest one already fixed, else a free value (R210; log entry 2). -/
def State.nextLatency (s : State) : Nat :=
  match s.sched with
  | [] => Config.latency s.draws
  | n :: _ => n

/-- Acceptance of the word c written to CMD while BUSY = 0 (R100). -/
def State.accept (s : State) (c : Word) : State :=
  { s with
    pend := some c
    status := { s.status with done := false, err := 0, errInfo := 0 }
    wait := s.nextLatency
    sched := s.sched.tail
    draws := s.draws + 1 }

/-- The errors a command rule can raise (R007, 60_exceptions.md R181). -/
inductive EngineError where
  /-- InvalidOption(info), info 1 to 5 (R184). -/
  | invalidOption (info : Byte)
  /-- CapacityExceeded(0) (R186). -/
  | capacityExceeded
  /-- InternalInvariant: reserved, no command raises it (R185). -/
  | internalInvariant
  /-- IllegalCommand(info) (30_encoding.md R087). -/
  | illegalCommand (info : Byte)
deriving DecidableEq, Repr

/-- The code written to STATUS.ERR (R181). -/
def EngineError.code : EngineError → BitVec 4
  | .invalidOption _ => 1
  | .capacityExceeded => 2
  | .internalInvariant => 3
  | .illegalCommand _ => 4

/-- The byte written to STATUS.ERRINFO (R181). -/
def EngineError.info : EngineError → Byte
  | .invalidOption i => i
  | .capacityExceeded => 0
  | .internalInvariant => 0
  | .illegalCommand i => i

/-- `raise E(info)`: ERR and ERRINFO are written and nothing else (R183). -/
def State.raise (s : State) (e : EngineError) : State :=
  { s with status := { s.status with err := e.code, errInfo := e.info } }

/-- The end of every ENGINE step: DONE ← 1, PEND ← NONE (R101). -/
def State.complete (s : State) : State :=
  { s with status := { s.status with done := true }, pend := none }

/-- The ENGINE step around a command rule run in state s: its results where it succeeds, only the error report where it
raises (R101, R107, R183). The step always completes. -/
def finishCommand (s : State) : Except EngineError State → Host.Outcome State Fault Refusal
  | .ok t => .next t.complete
  | .error e => .next (s.raise e).complete

/-- The result registers GENERATE, LOOKUP and SELECT share (R102, R103, R104). -/
def Results.withSymbol (r : Results) (v : Nat) (c : BlockCfg) : Results :=
  { r with
    version := BitVec.ofNat 6 v
    width := BitVec.ofNat 8 (symbolWidth v)
    nb1 := BitVec.ofNat 8 c.nb1
    nb2 := BitVec.ofNat 8 c.nb2
    dbLen := BitVec.ofNat 8 c.d
    ebLen := BitVec.ofNat 8 c.e
    capacity := BitVec.ofNat 16 (capacityOf v c)
    dataCw := BitVec.ofNat 16 (dataCodewords c)
    totalCw := BitVec.ofNat 16 (totalCodewords c) }

/-- SCORE[0..7] from the scores of a search, modulo 2^32; all 0 where none was made (10_state.md R041, 47_mask_finish.md R169). -/
def scoreRegs (scores : List Nat) : Vector Word 8 :=
  Vector.ofFn fun j => BitVec.ofNat 32 (scores.getD j.val 0)

/-- A host read has used its draw (log entry 4). -/
def State.drawn (s : State) : State := { s with draws := s.draws + 1 }

/-- The platform's reset of the block (70_reset_and_hazards.md R200, R201, R202): every register to its reset value, PEND to
NONE, the buffers unspecified. The host, the parameters and the schedule are not the block's (log entry 6). -/
def State.platformReset (s : State) : State :=
  { s with
    ctrl := Ctrl.zero, status := Status.zero, len := 0, vsel := 0, eccLen := 0, res := Results.zero, pend := none, mem := []
    resetCount := s.resetCount + 1 }

end Sys2Proof.Machine
end

