-- ==== Sys2Proof/Machine/Bus.lean ====
section
/-! DEFINITION. The host bus accesses MemRead and MemWrite on the window (20_memory.md R060 to R075): regions, legality,
byte order, the register map (10_state.md R023), and what happens while BUSY = 1 (70_reset_and_hazards.md R205, R206). -/

namespace Sys2Proof.Machine

/-- The number of bytes of an access (R063). -/
def Width.bytes : Width → Nat
  | .w1 => 1
  | .w2 => 2
  | .w4 => 4

/-- The regions of the window (R060). -/
inductive Region where
  | registers
  | inbuf
  | rsout
  | matrix
  | unmapped
deriving DecidableEq, Repr

/-- The region of a host address (R060). -/
def regionOf (a : Addr) : Region :=
  let n := a.toNat
  if n < 0x0100 then .registers
  else if 0x1000 ≤ n && n < 0x2000 then .inbuf
  else if 0x2000 ≤ n && n < 0x2020 then .rsout
  else if 0x4000 ≤ n && n < 0x5000 then .matrix
  else .unmapped

/-- Is an access of n bytes at a naturally aligned (R063)? -/
def aligned (a : Addr) (n : Width) : Bool := a.toNat % n.bytes = 0

/-- Does the block take the access? Otherwise it is a bus error: unmapped (R062), a sub-word or misaligned register access
(R064), a misaligned buffer access (R065). -/
def accessLegal (a : Addr) (n : Width) : Bool :=
  match regionOf a with
  | .unmapped => false
  | .registers => decide (n = .w4) && aligned a n
  | .inbuf => aligned a n
  | .rsout => aligned a n
  | .matrix => aligned a n

/-- The result registers and SCORE[0..7] by offset (10_state.md R023); none at every other offset. -/
def Results.reg? (r : Results) : Nat → Option Word
  | 0x020 => some (r.version.setWidth 32)
  | 0x024 => some (r.width.setWidth 32)
  | 0x028 => some (r.maskSel.setWidth 32)
  | 0x02C => some (r.nb1.setWidth 32)
  | 0x030 => some (r.nb2.setWidth 32)
  | 0x034 => some (r.dbLen.setWidth 32)
  | 0x038 => some (r.ebLen.setWidth 32)
  | 0x03C => some (r.capacity.setWidth 32)
  | 0x040 => some (r.effLen.setWidth 32)
  | 0x044 => some (r.fmtWord.setWidth 32)
  | 0x048 => some (r.verWord.setWidth 32)
  | 0x04C => some (r.dataCw.setWidth 32)
  | 0x050 => some (r.totalCw.setWidth 32)
  | 0x060 => some r.score[0]
  | 0x064 => some r.score[1]
  | 0x068 => some r.score[2]
  | 0x06C => some r.score[3]
  | 0x070 => some r.score[4]
  | 0x074 => some r.score[5]
  | 0x078 => some r.score[6]
  | 0x07C => some r.score[7]
  | _ => none

/-- The other registers by offset: CMD is write-only and reads 0 (R030), reserved offsets read 0 (R064). -/
def State.ownReg (s : State) : Nat → Word
  | 0x000 => Config.idWord
  | 0x004 => s.ctrl.word
  | 0x00C => s.statusWord
  | 0x010 => s.len.setWidth 32
  | 0x014 => s.vsel.setWidth 32
  | 0x018 => s.eccLen.setWidth 32
  | _ => 0

/-- A 32-bit read of the register at an offset; a result register read while BUSY = 1 is a free draw (R072; log entry 4). -/
def State.readReg (s : State) (off : Nat) : Word :=
  match s.res.reg? off with
  | some w => if s.busy then Config.freeWord s.draws else w
  | none => s.ownReg off

/-- One byte of a buffer region as the host reads it: INBUF always its content; RSOUT and MATRIX a free draw while BUSY = 1
(R072); the MATRIX region above its 3917 bytes 0 (R061; log entry 7). -/
def State.readByte (s : State) (a : Nat) : Byte :=
  if isInbuf a then s.memByte a
  else if isRsout a || isMatrix a then (if s.busy then Config.freeByte s.draws a else s.memByte a)
  else 0

/-- The little-endian value of a run of bytes, the first in bits 7:0 (R066). -/
def leValue : List Byte → Nat
  | [] => 0
  | b :: bs => b.toNat + 256 * leValue bs

/-- The n bytes of a value, bits 7:0 first (R066). -/
def leBytes (v : Word) (n : Nat) : List Byte := (List.range n).map fun j => v.extractLsb' (8 * j) 8

/-- The value a legal MemRead returns, zero-extended (R066, R092). -/
def State.readValue (s : State) (a : Addr) (n : Width) : Word :=
  match regionOf a with
  | .registers => s.readReg a.toNat
  | _ => BitVec.ofNat 32 (leValue ((List.range n.bytes).map fun j => s.readByte (a.toNat + j)))

/-- `MemRead(a, n)`: none is a bus error (R071). A read has no side effect on the block (R070); it uses one draw (log entry 4). -/
def State.memRead (s : State) (a : Addr) (n : Width) : Option (Word × State) :=
  if accessLegal a n then some (s.readValue a n, s.drawn) else none

/-- A host write that BUSY = 1 drops (R205): `t` is the state it leads to otherwise. -/
def State.unlessBusy (s t : State) : State := if s.busy then s.dropWrite else t

/-- A 32-bit write to the register at an offset. CTRL, CMD, LEN, VSEL and ECCLEN are dropped while BUSY = 1 (R205), STATUS never
(R037); every other offset ignores the write (R064, R070). -/
def State.writeReg (s : State) (off : Nat) (v : Word) : State :=
  match off with
  | 0x004 => s.unlessBusy { s with ctrl := Ctrl.ofWord v }
  | 0x008 => s.unlessBusy (s.accept v)
  | 0x00C => s.writeStatus v
  | 0x010 => s.unlessBusy { s with len := v.extractLsb' 0 16 }
  | 0x014 => s.unlessBusy { s with vsel := v.extractLsb' 0 6 }
  | 0x018 => s.unlessBusy { s with eccLen := v.extractLsb' 0 8 }
  | _ => s

/-- The effect of a legal MemWrite: INBUF takes the n bytes unless BUSY = 1; RSOUT and MATRIX ignore it (R070, R205). -/
def State.writeValue (s : State) (a : Addr) (n : Width) (v : Word) : State :=
  match regionOf a with
  | .registers => s.writeReg a.toNat v
  | .inbuf => s.unlessBusy { s with mem := Memory.write s.mem a.toNat (leBytes v n.bytes) }
  | .rsout => s
  | .matrix => s
  | .unmapped => s

/-- `MemWrite(a, n, v)`: none is a bus error, and then nothing changes (R071). -/
def State.memWrite (s : State) (a : Addr) (n : Width) (v : Word) : Option State :=
  if accessLegal a n then some (s.writeValue a n v) else none

end Sys2Proof.Machine
end

