-- ==== Sys2Proof/Machine/Codeword.lean ====
section
/-! DEFINITION. Stage S3, the codeword encoder (43_codeword.md R131 to R136). -/

namespace Sys2Proof.Machine

/-- A byte as two nibbles, high first (R134). -/
def byteNibbles (b : Byte) : List (BitVec 4) := [b.extractLsb' 4 4, b.extractLsb' 0 4]

/-- The header: the mode nibble 0100 and the count field, 8 bits for v ≤ 9 and 16 bits for v ≥ 10 (R132, R134). -/
def headerNibbles (v len : Nat) : List (BitVec 4) :=
  if v ≤ 9 then [0x4, BitVec.ofNat 4 (len / 16), BitVec.ofNat 4 len]
  else [0x4, BitVec.ofNat 4 (len / 4096), BitVec.ofNat 4 (len / 256), BitVec.ofNat 4 (len / 16), BitVec.ofNat 4 len]

/-- The nibble sequence N: header, data bytes, and the terminator 0000 (R134). -/
def codewordNibbles (v : Nat) (value : List Byte) : List (BitVec 4) :=
  headerNibbles v value.length ++ value.flatMap byteNibbles ++ [0x0]

/-- Two nibbles a byte, the first high (R134). -/
def packNibbles : List (BitVec 4) → List Byte
  | hi :: lo :: rest => (hi ++ lo) :: packNibbles rest
  | _ => []

/-- `count` pad bytes 0xEC, 0x11, 0xEC, … (R135). -/
def padBytes (count : Nat) : List Byte := (List.range count).map fun j => if j % 2 = 0 then 0xEC else 0x11

/-- The codeword buffer CW of `m` bytes for the L = |value| bytes encoded at version v: header, data and terminator (R134),
then the pad until it is full (R135). -/
def encodeCodewords (value : List Byte) (v m : Nat) : List Byte :=
  let h := packNibbles (codewordNibbles v value)
  h ++ padBytes (m - h.length)

end Sys2Proof.Machine
end

