-- ==== Sys2Proof/Machine/ReedSolomon.lean ====
section
/-! DEFINITION. Stage S4, the Reed-Solomon ECC generator over GF(256) (44_reed_solomon.md R137 to R147). Addition and
subtraction are both XOR of bytes (R137). -/

namespace Sys2Proof.Machine

/-- Field multiplication by the log and antilog tables (R142); exponents are added modulo 255 (R141). -/
def gfMul (a b : Byte) : Byte :=
  if a = 0 ∨ b = 0 then 0 else Rom.exp ((Rom.log a + Rom.log b) % 255)

/-- One linear factor: the coefficients of g·(x + α^i), entry k that of x^k (R143). -/
def genTimes (g : List Byte) (i : Nat) : List Byte :=
  List.zipWith (· ^^^ ·) (0 :: g) (g.map (gfMul · (Rom.exp i)) ++ [0])

/-- The generator polynomial g_e with roots α^0..α^(e−1), entry k the coefficient of x^k (R143). -/
def genPoly (e : Nat) : List Byte := (List.range e).foldl genTimes [1]

/-- GEN[0..e], the generator in log domain (R144). -/
def genLog (e : Nat) : List Nat := (genPoly e).map Rom.log

/-- One round of the division on the remainder R: the feedback f is the log of data ⊕ R[0]; at the sentinel 255 the register
only shifts, else EXP[(f + GEN[e−j]) mod 255] is added into place j − 1, j = 1..e (R140, R145). -/
def rsRound (gen : List Nat) (e : Nat) (r : List Byte) (data : Byte) : List Byte :=
  let f := Rom.log (data ^^^ r.getD 0 0)
  (List.range e).map fun k =>
    let shifted := if k + 1 < e then r.getD (k + 1) 0 else 0
    if f = 255 then shifted else shifted ^^^ Rom.exp ((f + gen.getD (e - 1 - k) 0) % 255)

/-- `RSDivide(data, e)`: the e remainder bytes (R145). -/
def rsDivide (data : List Byte) (e : Nat) : List Byte :=
  data.foldl (rsRound (genLog e) e) (List.replicate e 0)

/-- The number of data bytes of block b (R146). -/
def blockLen (c : BlockCfg) (b : Nat) : Nat := if b < c.nb1 then c.d else c.d + 1

/-- The index in CW of the first data byte of block b: b·d + max(0, b − nb1) (R146). -/
def blockStart (c : BlockCfg) (b : Nat) : Nat := b * c.d + (b - c.nb1)

/-- The data bytes of block b (R146). -/
def blockData (cw : List Byte) (c : BlockCfg) (b : Nat) : List Byte := (cw.drop (blockStart c b)).take (blockLen c b)

/-- `RSBlocks(CW, cfg)`: ECCBUF, e ECC bytes a block, block after block (R146). -/
def rsBlocks (cw : List Byte) (c : BlockCfg) : List Byte :=
  (List.range (numBlocks c)).flatMap fun b => rsDivide (blockData cw c b) c.e

end Sys2Proof.Machine
end

