-- ==== Sys2Proof/Machine/Interleave.lean ====
section
/-! DEFINITION. Stage S5, the block interleaver (45_interleave.md R148 to R150). -/

namespace Sys2Proof.Machine

/-- The full data rounds: data byte i of every block, i = 0..d−1 (R148). -/
def dataRounds (cw : List Byte) (c : BlockCfg) : List Byte :=
  (List.range c.d).flatMap fun i => (List.range (numBlocks c)).map fun b => cw.getD (blockStart c b + i) 0

/-- The final partial round: the (d+1)-th data byte of each long block (R148). -/
def longRound (cw : List Byte) (c : BlockCfg) : List Byte :=
  (List.range c.nb2).map fun j => cw.getD (blockStart c (c.nb1 + j) + c.d) 0

/-- The ECC rounds: ECC byte i of every block, i = 0..e−1 (R148). -/
def eccRounds (ecc : List Byte) (c : BlockCfg) : List Byte :=
  (List.range c.e).flatMap fun i => (List.range (numBlocks c)).map fun b => ecc.getD (b * c.e + i) 0

/-- `Interleave(CW, ECCBUF, cfg)`: the transmission-order stream ILV (R148). -/
def interleave (cw ecc : List Byte) (c : BlockCfg) : List Byte :=
  dataRounds cw c ++ longRound cw c ++ eccRounds ecc c

end Sys2Proof.Machine
end

