-- ==== Sys2Proof/Machine/Pack.lean ====
section
/-! DEFINITION. Stage S6, the module packer (46_pack.md R151 to R153). -/

namespace Sys2Proof.Machine

/-- The right columns of the column pairs from `right` leftward, over the timing column 6; `fuel` bounds their number (R151). -/
def pairColumns : Nat → Nat → List Nat
  | 0, _ => []
  | fuel + 1, right =>
    if right ≥ 1 then
      let r := if right = 6 then 5 else right
      r :: pairColumns fuel (r - 2)
    else []

/-- Is the pair with right column `r` traversed upward: ((right + 1) & 2) = 0 (R151). -/
def isUpward (r : Nat) : Bool := (r + 1) &&& 2 = 0

/-- The cells of one column pair in traversal order, the right column of a row first (R151). -/
def pairCells (w r : Nat) : List Cell :=
  (List.range w).flatMap fun vert =>
    let y := if isUpward r then w - 1 - vert else vert
    [(r, y), (r - 1, y)]

/-- `Path(EXCL, w)`: the non-reserved cells in zig-zag order (R151). -/
def path (excl : Bitmap) (w : Nat) : List Cell :=
  ((pairColumns w (w - 1)).flatMap (pairCells w)).filter fun c => !isReserved excl c

/-- The bits of a byte, bit 7 first (R152). -/
def byteBits (b : Byte) : List Bool := (List.range 8).map fun i => b.getLsbD (7 - i)

/-- `Pack(MOD, EXCL, ILV, w)`: bit i of ILV, MSB-first, goes to cell i of the path; the cells after the last bit stay light
(R152, R153). -/
def pack (s : Scratch) (ilv : List Byte) (w : Nat) : Bitmap :=
  ((path s.excl w).zip (ilv.flatMap byteBits)).foldl (fun m p => if p.2 then Bitmap.setDark m w p.1 else m) s.mod

end Sys2Proof.Machine
end

