-- ==== Sys2Proof/Machine/Commands.lean ====
section
/-! DEFINITION. The meanings of the five commands (40_commands.md R102 to R106), one definition for each. A command rule either
returns the state with all its results or raises one error (R107); `finishCommand` then ends the ENGINE step. -/

namespace Sys2Proof.Machine

/-- Stages S2 to S7 of GENERATE on the selection S1 made and the bytes to encode (R102, R108). -/
def generateSymbol (p : Config.Params) (sel : Selection) (lvl : Nat) (value : List Byte) (override : Option Nat) : Finished :=
  let lay := layout sel.v
  let cw := encodeCodewords value sel.v (dataCodewords sel.cfg)
  let ecc := rsBlocks cw sel.cfg
  let ilv := interleave cw ecc sel.cfg
  maskFinish p (pack lay ilv (symbolWidth sel.v)) lay.excl sel.v lvl override

/-- The write-back of GENERATE (R102): every result register, SCORE, SCORE_VALID, TRUNCATED and the whole of MATRIX. `len` is the
number of bytes encoded. -/
def State.writeSymbol (s : State) (sel : Selection) (len : Nat) (fin : Finished) : State :=
  { s with
    res := { s.res.withSymbol sel.v sel.cfg with
      effLen := BitVec.ofNat 16 len
      maskSel := BitVec.ofNat 3 fin.mask
      fmtWord := fin.fmt
      verWord := fin.ver
      score := scoreRegs fin.scores }
    status := { s.status with scoreValid := s.maskOverride.isNone, truncated := decide (len < s.inputLen) }
    mem := Memory.write s.mem Config.matrixBase (packMatrix fin.mod (symbolWidth sel.v)) }

/-- Does GENERATE reject the mask override: MOVR_EN = 1 and MOVR > 7 (R102, 60_exceptions.md R184)? -/
def State.overrideIllegal (s : State) : Bool := s.ctrl.movrEn && decide (s.ctrl.movr.toNat > 7)

/-- The command rule of GENERATE (R102), with its checks in the order of 60_exceptions.md R187. -/
def runGenerate (s : State) : Except EngineError State :=
  if !levelLegal s.lvl then .error (.invalidOption 1)
  else if s.overrideIllegal then .error (.invalidOption 2)
  else
    let sel := selectVersion s.inputLen s.lvl
    if !sel.fits && s.ctrl.strict then .error .capacityExceeded
    else
      let len := encodedLength s.inputLen sel.v sel.cfg
      let fin := generateSymbol s.params sel s.lvl (s.inbufBytes len) s.maskOverride
      .ok (s.writeSymbol sel len fin)

/-- The write-back of LOOKUP: the shared result registers (R103). -/
def State.writeLookup (s : State) (v : Nat) (c : BlockCfg) : State := { s with res := s.res.withSymbol v c }

/-- The command rule of LOOKUP (R103). -/
def runLookup (s : State) : Except EngineError State :=
  if !levelLegal s.lvl then .error (.invalidOption 1)
  else if !(decide (1 ≤ s.versionSel) && decide (s.versionSel ≤ 40)) then .error (.invalidOption 3)
  else .ok (s.writeLookup s.versionSel (lookupCfg s.lvl s.versionSel))

/-- The write-back of SELECT: the shared result registers, EFFLEN and TRUNCATED (R104). -/
def State.writeSelection (s : State) (sel : Selection) : State :=
  { s with
    res := { s.res.withSymbol sel.v sel.cfg with effLen := BitVec.ofNat 16 (min s.inputLen (capacityOf sel.v sel.cfg)) }
    status := { s.status with truncated := decide (s.inputLen > capacityOf sel.v sel.cfg) } }

/-- The command rule of SELECT (R104). -/
def runSelect (s : State) : Except EngineError State :=
  if !levelLegal s.lvl then .error (.invalidOption 1)
  else
    let sel := selectVersion s.inputLen s.lvl
    if !sel.fits && s.ctrl.strict then .error .capacityExceeded else .ok (s.writeSelection sel)

/-- The 32 bytes RSENC writes to RSOUT: the e remainder bytes, then zeros (R105, 44_reed_solomon.md R147). -/
def rsoutBytes (r : List Byte) (e : Nat) : List Byte :=
  (List.range Config.rsoutSize).map fun j => if j < e then r.getD j 0 else 0

/-- The write-back of RSENC: all 32 bytes of RSOUT (R105). -/
def State.writeRsout (s : State) (r : List Byte) (e : Nat) : State :=
  { s with mem := Memory.write s.mem Config.rsoutBase (rsoutBytes r e) }

/-- The command rule of RSENC (R105). -/
def runRsenc (s : State) : Except EngineError State :=
  if !(decide (1 ≤ s.eccCount) && decide (s.eccCount ≤ 30)) then .error (.invalidOption 4)
  else if s.inputLen > 255 - s.eccCount then .error (.invalidOption 5)
  else
    let r := rsDivide (s.inbufBytes s.inputLen) s.eccCount
    .ok (s.writeRsout r s.eccCount)

/-- NOP: the ENGINE step sets DONE and changes nothing else (R106). -/
def execNop (s : State) : Host.Outcome State Fault Refusal := finishCommand s (.ok s)

/-- GENERATE (R102). -/
def execGenerate (s : State) : Host.Outcome State Fault Refusal := finishCommand s (runGenerate s)

/-- LOOKUP (R103). -/
def execLookup (s : State) : Host.Outcome State Fault Refusal := finishCommand s (runLookup s)

/-- SELECT (R104). -/
def execSelect (s : State) : Host.Outcome State Fault Refusal := finishCommand s (runSelect s)

/-- RSENC (R105). -/
def execRsenc (s : State) : Host.Outcome State Fault Refusal := finishCommand s (runRsenc s)

end Sys2Proof.Machine
end

