-- ==== Sys2Proof/Machine/Dispatch.lean ====
section
/-! DEFINITION. One arm per command: the ENGINE step of a decoded command (40_commands.md R101). -/

namespace Sys2Proof.Machine

def exec (i : Instr) (s : State) : Host.Outcome State Fault Refusal :=
  match i with
  | .nop => Sys2Proof.Machine.execNop s
  | .generate => Sys2Proof.Machine.execGenerate s
  | .lookup => Sys2Proof.Machine.execLookup s
  | .select => Sys2Proof.Machine.execSelect s
  | .rsenc => Sys2Proof.Machine.execRsenc s

end Sys2Proof.Machine
end

