-- ==== Sys2Proof/Machine/Agents.lean ====
section
/-! DEFINITION. The steps of the agents: the ENGINE executes PEND (40_commands.md R101), the HOST executes one HASM statement
(30_encoding.md R092), the PLATFORM resets the block (70_reset_and_hazards.md R202); and which of them moves next. -/

namespace Sys2Proof.Machine

/-- The ENGINE step on the word in PEND: decode it (30_encoding.md R087), then run the command, or report IllegalCommand
(R089). -/
def engineStep (w : Word) (s : State) : Host.Outcome State Fault Refusal :=
  match decode w with
  | .ok i => exec i s
  | .error e => finishCommand s (.error (.illegalCommand e.info))

/-- The value of host register hR (R092). -/
def HostAgent.get (h : HostAgent) (r : HReg) : Word := h.regs.get r

/-- `hR <- v` (R092). -/
def HostAgent.set (h : HostAgent) (r : HReg) (v : Word) : HostAgent := { h with regs := h.regs.set r v }

/-- The next statement in program order. -/
def HostAgent.advance (h : HostAgent) : HostAgent := { h with pos := h.pos + 1 }

/-- The statement the host is at, none past the end of its program. -/
def HostAgent.stmt? (h : HostAgent) : Option HostStmt := (h.prog[h.pos]?).map HostLine.stmt

/-- The place of a label in a program: the first statement that carries it (log entry 9). -/
def findLabel (l : Label) : List HostLine → Option Nat
  | [] => none
  | line :: rest => if line.labels.contains l then some 0 else (findLabel l rest).map (· + 1)

/-- The value a write statement writes (R092). -/
def HostAgent.writeSrc (h : HostAgent) : WriteSrc → Word
  | .const v => v
  | .reg r => h.get r

/-- The machine with another host agent. -/
def State.withHost (s : State) (h : HostAgent) : State := { s with host := h }

/-- A host branch to a label where a condition holds, else the next statement (R092). -/
def hostBranch (s : State) (taken : Bool) (l : Label) : Host.Outcome State Fault Refusal :=
  if taken then
    match findLabel l s.host.prog with
    | some k => .next (s.withHost { s.host with pos := k })
    | none => .refused (.noSuchLabel l)
  else .next (s.withHost s.host.advance)

/-- The host statement that writes: one MemWrite, then the next statement; a bus error is a fault of the HOST step (R188). -/
def hostWrite (s : State) (n : Width) (a : Addr) (v : Word) : Host.Outcome State Fault Refusal :=
  match s.memWrite a n v with
  | some t => .next (t.withHost t.host.advance)
  | none => .fault (.busError a n .write)

/-- The host statement that reads: `hR <- zext_32(MemRead(A, n))` (R092). -/
def hostRead (s : State) (n : Width) (r : HReg) (a : Addr) : Host.Outcome State Fault Refusal :=
  match s.memRead a n with
  | some (v, t) => .next (t.withHost (t.host.set r v).advance)
  | none => .fault (.busError a n .read)

/-- One HASM statement (R092). -/
def execHost (st : HostStmt) (s : State) : Host.Outcome State Fault Refusal :=
  match st with
  | .wr n a v => hostWrite s n a (s.host.writeSrc v)
  | .rd n r a => hostRead s n r a
  | .li r v => .next (s.withHost (s.host.set r v).advance)
  | .addi r q v => .next (s.withHost (s.host.set r (s.host.get q + v)).advance)
  | .andi r q v => .next (s.withHost (s.host.set r (s.host.get q &&& v)).advance)
  | .beqz r l => hostBranch s (decide (s.host.get r = 0)) l
  | .bnez r l => hostBranch s (decide (s.host.get r ≠ 0)) l
  | .bne r v l => hostBranch s (decide (s.host.get r ≠ v)) l
  | .jmp l => hostBranch s true l
  | .halt => .next s

/-- Has the host ended: at `halt`, or past its program's last statement (R213; log entry 11)? -/
def HostAgent.ended (h : HostAgent) : Bool :=
  match h.stmt? with
  | none => true
  | some .halt => true
  | some _ => false

/-- The HOST step. A host that has ended makes no more accesses, and the block is left as it is (log entry 11). -/
def hostStep (s : State) : Host.Outcome State Fault Refusal :=
  match s.host.stmt? with
  | none => .next s
  | some st => execHost st s

/-- The schedule of the platform's resets one step later (log entry 6). -/
def tickResets : List Nat → List Nat
  | [] => []
  | n :: rest => (n - 1) :: rest

/-- A step of HOST brings the ENGINE step and the next platform reset one step nearer (R210; log entries 2 and 6). -/
def State.tick (s : State) : State := { s with wait := s.wait - 1, resets := tickResets s.resets }

/-- Whose step comes next. -/
inductive Turn where
  /-- The ENGINE executes the word in PEND. -/
  | engine (w : Word)
  /-- The platform resets the block. -/
  | platform
  /-- The HOST executes its next statement. -/
  | host
deriving DecidableEq, Repr

/-- Who moves next: the ENGINE where a command is pending and no host step is left to wait (R101); else the platform where its
reset is due (R202); else the HOST. -/
def State.turn (s : State) : Turn :=
  match s.pend, s.wait with
  | some w, 0 => .engine w
  | _, _ =>
    match s.resets with
    | 0 :: _ => .platform
    | _ => .host

/-- The step of the agent whose turn it is (20_memory.md R073, R076: one agent, one indivisible step). -/
def agentStep (s : State) : Host.Outcome State Fault Refusal :=
  match s.turn with
  | .engine w => engineStep w s
  | .platform => .next { s.platformReset with resets := s.resets.tail }
  | .host => hostStep s.tick

/-- The machine with the command word w in PEND and the ENGINE step next (log entry 1). -/
def State.withCommand (s : State) (w : Word) : State := { s with pend := some w, wait := 0 }

/-- A run's start (R213): the reset state with a host program and bytes of INBUF already loaded. -/
def State.load (prog : List HostLine) (inbuf : List Byte) : State :=
  { State.reset with
    host := { HostAgent.idle with prog := prog }
    mem := Memory.write [] Config.inbufBase (inbuf.take Config.inbufSize) }

end Sys2Proof.Machine
end

