-- ==== Sys2Proof/Machine/Hasm.lean ====
section
/-! DEFINITION. The HASM pseudo-instructions and their expansions (30_encoding.md R093), and the assembly of a program of
statements and pseudo-instructions (R092, R094). -/

namespace Sys2Proof.Machine

/-- The offsets the expansions use (10_state.md R023). -/
def Hasm.ctrlOffset : Addr := 0x004
def Hasm.cmdOffset : Addr := 0x008
def Hasm.statusOffset : Addr := 0x00C

/-- The scratch register the expansions use (R093). -/
def Hasm.h7 : HReg := 7

/-- A HASM pseudo-instruction (R093). -/
inductive Pseudo where
  /-- `nop`, `gen`, `lookup`, `select`, `rsenc`: the command's word is written to CMD. -/
  | cmd (i : Instr)
  /-- `ctrl level=L, ie=I, strict=S, movr=K`; `none` where movr is omitted. DESIGN CHOICE: L has 3 bits, K 4, I and S one, the widths of
  the fields of CTRL; R093 gives the formula and no bound (log entry 19). -/
  | ctrl (level : BitVec 3) (ie strict : Bool) (movr : Option (BitVec 4))
  /-- `wait_done` with its fresh label W. -/
  | waitDone (fresh : Label)
  /-- `ack`. -/
  | ack
  /-- `wrbytes A, b0 … bn−1`. -/
  | wrbytes (a : Addr) (bs : List Byte)
  /-- `wrstr A, "text"`. -/
  | wrstr (a : Addr) (text : String)
deriving DecidableEq, Repr

/-- The CTRL value of `ctrl`: the terms of R093, the override's two dropped where movr is omitted. -/
def Hasm.ctrlValue (level : BitVec 3) (ie strict : Bool) (movr : Option (BitVec 4)) : Word :=
  let base := (level.setWidth 32 <<< 8) ||| (BitVec.ofBool strict).setWidth 32 <<< 1 ||| (BitVec.ofBool ie).setWidth 32
  match movr with
  | none => base
  | some k => base ||| (k.setWidth 32 <<< 4) ||| (1#32 <<< 2)

/-- A 32-bit write of a constant. -/
def Hasm.wr32 (a : Addr) (v : Word) : HostStmt := .wr .w4 a (.const v)

/-- A statement without a label. -/
def Hasm.line (st : HostStmt) : HostLine := { labels := [], stmt := st }

/-- `wr8 A+i, bi` for i = 0..n−1, in order (R093). DESIGN CHOICE: A + i is a 15-bit address, so the byte after 0x7FFF is written to 0x0000;
the spec gives that address no meaning, and a run stops at the bus error of 0x7FFF before it (log entry 17). -/
def Hasm.byteWrites : Addr → List Byte → List HostLine
  | _, [] => []
  | a, b :: bs => Hasm.line (.wr .w1 a (.const (b.setWidth 32))) :: Hasm.byteWrites (a + 1) bs

/-- The ASCII codes of a text, no terminator (R093). -/
def Hasm.asciiBytes (text : String) : List Byte := text.toList.map fun c => BitVec.ofNat 8 c.toNat

/-- The expansion of a pseudo-instruction (R093). -/
def Pseudo.expand : Pseudo → List HostLine
  | .cmd i => [Hasm.line (Hasm.wr32 Hasm.cmdOffset (encode i))]
  | .ctrl level ie strict movr => [Hasm.line (Hasm.wr32 Hasm.ctrlOffset (Hasm.ctrlValue level ie strict movr))]
  | .waitDone fresh =>
    [{ labels := [fresh], stmt := .rd .w4 Hasm.h7 Hasm.statusOffset },
     Hasm.line (.andi Hasm.h7 Hasm.h7 1),
     Hasm.line (.bnez Hasm.h7 fresh)]
  | .ack => [Hasm.line (Hasm.wr32 Hasm.statusOffset 0x00000006)]
  | .wrbytes a bs => Hasm.byteWrites a bs
  | .wrstr a text => Hasm.byteWrites a (Hasm.asciiBytes text)

/-- One item of a HASM text: a statement or a pseudo-instruction. -/
inductive HasmItem where
  | stmt (st : HostStmt)
  | pseudo (p : Pseudo)
deriving DecidableEq, Repr

/-- The lines of an item. -/
def HasmItem.lines : HasmItem → List HostLine
  | .stmt st => [Hasm.line st]
  | .pseudo p => p.expand

/-- Labels put before the first of some lines. DESIGN CHOICE: where there is no line, the empty `wrbytes` or `wrstr`, the labels are
dropped, for R093 does not say where they then stand (log entry 18). -/
def Hasm.withLabels (ls : List Label) : List HostLine → List HostLine
  | [] => []
  | l :: rest => { l with labels := ls ++ l.labels } :: rest

/-- A HASM text, each item with the labels that stand before it, as a program of statements (R092, R093). -/
def Hasm.assemble (items : List (List Label × HasmItem)) : List HostLine :=
  items.flatMap fun it => Hasm.withLabels it.1 it.2.lines

/-- The bus access a statement makes: its address, width and direction; none for a host-only statement, which has no encoding (R094). -/
def HostStmt.access? : HostStmt → Option (Addr × Width × Dir)
  | .wr n a _ => some (a, n, .write)
  | .rd n _ a => some (a, n, .read)
  | .li _ _ => none
  | .addi _ _ _ => none
  | .andi _ _ _ => none
  | .beqz _ _ => none
  | .bnez _ _ => none
  | .bne _ _ _ => none
  | .jmp _ => none
  | .halt => none

end Sys2Proof.Machine
end

