-- ==== Sys2Proof/WellFormed.lean ====
section
/-! DEFINITION. Which terms stand for something the spec has. A command carries no operand (30_encoding.md R085), so every
command is well formed. A host program is well formed where its labels are distinct and every branch goes to one of them
(R092); an access's address and width need no check, their types hold exactly the window and the three widths (R060, R063). -/

namespace Sys2Proof

/-- Every command is well formed: a CMD32 word carries nothing but its opcode (R085). -/
def Instr.wf : Instr → Bool
  | .nop => true
  | .generate => true
  | .lookup => true
  | .select => true
  | .rsenc => true

namespace Machine

/-- The label a statement branches to. -/
def HostStmt.target? : HostStmt → Option Label
  | .beqz _ l => some l
  | .bnez _ l => some l
  | .bne _ _ l => some l
  | .jmp l => some l
  | .wr _ _ _ => none
  | .rd _ _ _ => none
  | .li _ _ => none
  | .addi _ _ _ => none
  | .andi _ _ _ => none
  | .halt => none

/-- The labels of a program in order. -/
def programLabels (p : List HostLine) : List Label := p.flatMap HostLine.labels

/-- No label stands twice. -/
def labelsDistinct (p : List HostLine) : Bool := decide (programLabels p).Nodup

/-- Every branch goes to a label of the program. -/
def targetsDefined (p : List HostLine) : Bool :=
  p.all fun line => match line.stmt.target? with
    | none => true
    | some l => (programLabels p).contains l

/-- A well-formed host program. -/
def programWf (p : List HostLine) : Bool := labelsDistinct p && targetsDefined p

end Machine

end Sys2Proof
end

