-- ==== Sys2Proof/Safety.lean ====
section
/-! DEFINITION. What counts as a legal state of the machine and a run's end, in the terms the claims use. -/

namespace Sys2Proof.Machine

/-- The pairs (ERR, ERRINFO) of 60_exceptions.md R181: 0 with 0; InvalidOption with 1..5; CapacityExceeded with 0; IllegalCommand with
0x05..0x1F. InternalInvariant (3) and the codes 5..15 are never written (R185). -/
def errorReportLegal (err : BitVec 4) (info : Byte) : Bool :=
  match err.toNat with
  | 0 => decide (info.toNat = 0)
  | 1 => decide (1 ≤ info.toNat) && decide (info.toNat ≤ 5)
  | 2 => decide (info.toNat = 0)
  | 4 => decide (5 ≤ info.toNat) && decide (info.toNat ≤ 31)
  | _ => false

/-- VERSION and WIDTH describe one symbol: both 0 before the first write, else VERSION in 1..40 and WIDTH = 17 + 4·VERSION (R040). -/
def symbolRegsLegal (r : Results) : Bool :=
  (decide (r.version.toNat = 0) && decide (r.width.toNat = 0)) ||
  (decide (1 ≤ r.version.toNat) && decide (r.version.toNat ≤ 40) && decide (r.width.toNat = symbolWidth r.version.toNat))

/-- The bytes of a buffer from `base`, `n` of them, are all written or all unwritten (70_reset_and_hazards.md R201). -/
def writtenTogether (m : Memory) (base n : Nat) : Bool :=
  ((List.range n).all fun k => (Memory.get? m (base + k)).isSome) ||
  ((List.range n).all fun k => (Memory.get? m (base + k)).isNone)

/-- While a command is pending its report is clear: DONE = 0, ERR = 0, ERRINFO = 0 (R032, R033, R100). -/
def pendingReportClear (s : State) : Bool :=
  s.pend.isNone || (!s.status.done && decide (s.status.err = 0) && decide (s.status.errInfo = 0))

/-- Where SCORE_VALID = 0 every SCORE register is 0: reset and an override GENERATE leave them so, and nothing else writes them
(10_state.md R035, R041, 47_mask_finish.md R169). -/
def scoresLegal (s : State) : Bool := s.status.scoreValid || decide (s.res.score = Vector.replicate 8 0)

/-- FMTWORD is a format word of the mask in MASKSEL, or both are 0 before the first GENERATE (47_mask_finish.md R165, R168). -/
def formatRegsLegal (r : Results) : Bool :=
  (decide (r.maskSel = 0) && decide (r.fmtWord = 0)) ||
  [1, 2, 3, 4].any fun lvl => decide (r.fmtWord = Rom.format (r.maskSel.toNat + (lvl - 1) * 8))

/-- VERWORD is 0 or a version word of VINFO[7..40] (47_mask_finish.md R167). -/
def versionWordLegal (r : Results) : Bool :=
  decide (r.verWord = 0) || (List.range 34).any fun k => decide (r.verWord = Rom.vinfo (7 + k))

/-- The invariant of the machine: the memory keeps its canonical form, RSOUT and MATRIX are written whole or not at all, the
error report is one of R181, a pending command's report is clear, VERSION and WIDTH belong together, and SCORE, FMTWORD and
VERWORD hold what a GENERATE can have left there. -/
structure State.Inv (s : State) : Prop where
  memWf : Memory.wf s.mem = true
  rsoutWhole : writtenTogether s.mem Config.rsoutBase Config.rsoutSize = true
  matrixWhole : writtenTogether s.mem Config.matrixBase Config.matrixBytes = true
  reportLegal : errorReportLegal s.status.err s.status.errInfo = true
  pendingClear : pendingReportClear s = true
  symbolLegal : symbolRegsLegal s.res = true
  scoresClear : scoresLegal s = true
  formatLegal : formatRegsLegal s.res = true
  versionLegal : versionWordLegal s.res = true

/-- The value at x of the polynomial whose coefficients are the bytes of a codeword, the highest power first: C(x) =
Σ C[i]·x^(|C|−1−i) over GF(256), by Horner's rule (44_reed_solomon.md R147). -/
def gfEval (c : List Byte) (x : Byte) : Byte := c.foldl (fun acc b => gfMul acc x ^^^ b) 0

/-- MATRIX_BIT(i), the module with linear index i as MATRIX holds it: bit i mod 8 of byte i div 8 (20_memory.md R068); none where
the byte was never written. -/
def State.matrixModule? (s : State) (i : Nat) : Option Bool :=
  (Memory.get? s.mem (Config.matrixBase + i / 8)).map fun b => b.getLsbD (i % 8)

/-- RSOUT[j] (20_memory.md R061); none where it was never written. -/
def State.rsoutByte? (s : State) (j : Nat) : Option Byte := Memory.get? s.mem (Config.rsoutBase + j)

/-- The remainder of the polynomial n over GF(2) by the polynomial g of degree `deg`, for n of degree below deg + `steps`
(47_mask_finish.md R165, R167: mod_2). -/
def gf2Mod (g deg : Nat) : Nat → Nat → Nat
  | 0, n => n
  | steps + 1, n => gf2Mod g deg steps (if n.testBit (deg + steps) then n ^^^ (g <<< steps) else n)

/-- The level bits LB(lvl) of the format word: L = 01, M = 00, Q = 11, H = 10 (R165). -/
def levelBits (lvl : Nat) : Nat :=
  match lvl with
  | 1 => 1
  | 2 => 0
  | 3 => 3
  | _ => 2

/-- The state after an erroring ENGINE step from s: ERR, ERRINFO, DONE and PEND change, nothing else (60_exceptions.md R183). -/
def State.afterError (s : State) (err : BitVec 4) (info : Byte) : State :=
  { s with pend := none, status := { s.status with done := true, err := err, errInfo := info } }

/-- The end of a run (R213): the host has ended and no command is pending. -/
def State.runEnded (s : State) : Bool := s.host.ended && s.pend.isNone

/-! ### The structural patterns cell by cell, as 42_layout.md places them; the layout engine is compared with them -/

/-- The coordinate lists of 42_layout.md R125, version 1 first. -/
def alignCoordTable : List (List Nat) :=
  [[], [6, 18], [6, 22], [6, 26], [6, 30], [6, 34], [6, 22, 38], [6, 24, 42], [6, 26, 46], [6, 28, 50], [6, 30, 54], [6, 32, 58], [6, 34, 62], [6, 26, 46, 66]] ++
  [[6, 26, 48, 70], [6, 26, 50, 74], [6, 30, 54, 78], [6, 30, 56, 82], [6, 30, 58, 86], [6, 34, 62, 90], [6, 28, 50, 72, 94]] ++
  [[6, 26, 50, 74, 98], [6, 30, 54, 78, 102], [6, 28, 54, 80, 106], [6, 32, 58, 84, 110], [6, 30, 58, 86, 114], [6, 34, 62, 90, 118], [6, 26, 50, 74, 98, 122]] ++
  [[6, 30, 54, 78, 102, 126], [6, 26, 52, 78, 104, 130], [6, 30, 56, 82, 108, 134], [6, 34, 60, 86, 112, 138], [6, 30, 58, 86, 114, 142], [6, 34, 62, 90, 118, 146]] ++
  [[6, 30, 54, 78, 102, 126, 150], [6, 24, 50, 76, 102, 128, 154], [6, 28, 54, 80, 106, 132, 158], [6, 32, 58, 84, 110, 136, 162], [6, 26, 54, 82, 110, 138, 166], [6, 30, 58, 86, 114, 142, 170]]

/-- The coordinates of the alignment centres of version v (R125). -/
def alignCoords (v : Nat) : List Nat := alignCoordTable.getD (v - 1) []

/-- The centres R125 lists: every pair of coordinates but the three that overlap a finder. -/
def listedCentres (v : Nat) : List Cell :=
  let w := symbolWidth v
  ((alignCoords v).flatMap fun a => (alignCoords v).map fun b => (a, b)).filter
    fun c => !([(6, 6), (6, w - 7), (w - 7, 6)].contains c)

/-- The centres of the three finder patterns (R120). -/
def finderCentres (w : Nat) : List Cell := [(3, 3), (w - 4, 3), (3, w - 4)]

/-- The Chebyshev distance of two cells (R120, R122). -/
def cellDist (a b : Cell) : Nat := max (dist a.1 b.1) (dist a.2 b.2)

/-- Is a cell on a timing pattern: row 6 or column 6 between the separators (R126)? -/
def onTiming (w : Nat) (c : Cell) : Bool :=
  (c.2 = 6 && 8 ≤ c.1 && c.1 + 9 ≤ w) || (c.1 = 6 && 8 ≤ c.2 && c.2 + 9 ≤ w)

/-- Is a cell on a format strip or the dark module (R127, R129): the first nine cells and the last eight of row 8 and of column 8? -/
def onFormat (w : Nat) (c : Cell) : Bool :=
  (c.2 = 8 && (c.1 ≤ 8 || w ≤ c.1 + 8)) || (c.1 = 8 && (c.2 ≤ 8 || w ≤ c.2 + 8))

/-- Is a cell in a version block: columns 0..5 of rows w−11..w−9, or the transpose, for v ≥ 7 (R128)? -/
def onVersion (v : Nat) (c : Cell) : Bool :=
  let block := fun a b => a ≤ 5 && symbolWidth v ≤ b + 11 && b + 9 ≤ symbolWidth v
  7 ≤ v && (block c.1 c.2 || block c.2 c.1)

/-- The cells that are dark after S2: the outer ring and the core of each finder, the outer ring and the centre of each alignment
pattern, the even cells of the timing patterns, and the dark module (R120, R122, R126, R129). -/
def structuralDark (v : Nat) (c : Cell) : Bool :=
  let w := symbolWidth v
  (finderCentres w).any (fun f => cellDist f c = 3 || cellDist f c ≤ 1) ||
  (listedCentres v).any (fun a => cellDist a c = 2 || cellDist a c = 0) ||
  (onTiming w c && (c.1 + c.2) % 2 = 0) || c = (8, w - 8)

/-- The cells that are reserved after S2: the finders with their separators, the alignment patterns, the timing patterns, the format
strips with the dark module, and the version blocks (R120 to R130). -/
def structuralReserved (v : Nat) (c : Cell) : Bool :=
  let w := symbolWidth v
  (finderCentres w).any (fun f => cellDist f c ≤ 4) || (listedCentres v).any (fun a => cellDist a c ≤ 2) ||
  onTiming w c || onFormat w c || onVersion v c

/-- The remainder count r(v) (46_pack.md R153). -/
def remainderCells (v : Nat) : Nat :=
  if v ≤ 1 then 0 else if v ≤ 6 then 7 else if v ≤ 13 then 0 else if v ≤ 20 then 3 else if v ≤ 27 then 4
  else if v ≤ 34 then 3 else 0

end Sys2Proof.Machine
end

