-- ==== Sys2Proof/Certificates/Slice0/Obligations.lean ====
section
/-! DEFINITION. The statements about the machine, each from the numbered rules of spec/. -/

open Sys2Proof Sys2Proof.Machine

/-! ### Commands and their encoding -/

/-- NOP does nothing but complete: the ENGINE step sets DONE and clears PEND, and no other field of the machine changes. After
its acceptance (R100) the report is clear. A word with OP = 0 and RSV ≠ 0 is no NOP: it reports IllegalCommand(0x10) (R106). -/
def Obligations.NopOnlyCompletes : Prop :=
  (∀ s : State, exec .nop s = .next { s with pend := none, status := { s.status with done := true } }) ∧
  (∀ s : State, exec .nop (s.accept (encode .nop)) =
    .next { s.accept (encode .nop) with
      pend := none, status := { s.status with done := true, err := 0, errInfo := 0 } }) ∧
  (∀ (s : State) (w : Word), s.pend = some w → s.wait = 0 → cmdOp w = 0 → cmdRsv w ≠ 0 →
    step s = .next (s.afterError 4 0x10))

/-- The ENGINE step decodes PEND in the order of R087: a word with RSV ≠ 0 reports IllegalCommand(OP | 0x10); then OP 0..4 run the
five commands; then OP 0x5..0xF report IllegalCommand(OP). -/
def Obligations.PendingWordIsDecodedInOrder : Prop :=
  ∀ (s : State) (w : Word), s.pend = some w → s.wait = 0 →
    (cmdRsv w ≠ 0 → step s = .next (s.afterError 4 ((cmdOp w).setWidth 8 ||| 0x10))) ∧
    (cmdRsv w = 0 → cmdOp w = 0x0 → step s = exec .nop s) ∧
    (cmdRsv w = 0 → cmdOp w = 0x1 → step s = exec .generate s) ∧
    (cmdRsv w = 0 → cmdOp w = 0x2 → step s = exec .lookup s) ∧
    (cmdRsv w = 0 → cmdOp w = 0x3 → step s = exec .select s) ∧
    (cmdRsv w = 0 → cmdOp w = 0x4 → step s = exec .rsenc s) ∧
    (cmdRsv w = 0 → 5 ≤ (cmdOp w).toNat → step s = .next (s.afterError 4 ((cmdOp w).setWidth 8)))

/-- A step runs the decoded instruction: where a command is pending, no host step is left to wait and its word decodes to i, the step
is exec of i at that very state, and nothing is done around it (the wait is the model's, log entry 2). -/
def Obligations.StepRunsTheDecodedCommand : Prop :=
  ∀ (s : State) (w : Word) (i : Instr), s.pend = some w → s.wait = 0 → decode w = .ok i → i.wf = true → step s = exec i s

/-- Decoding the word of a command gives the command, and no other word decodes to it (R088: each command's mask is all ones). -/
def Obligations.DecodeAndEncodeAgree : Prop :=
  (∀ i : Instr, decode (encode i) = .ok i) ∧ (∀ (w : Word) (i : Instr), decode w = .ok i → w = encode i)

/-- The five words of the opcode map and a few illegal ones, written out from R085 and R087. -/
def Obligations.CommandWordsDecodeAsTheMapSays : Prop :=
  decode 0x00000000#32 = .ok .nop ∧ decode 0x00000001#32 = .ok .generate ∧ decode 0x00000002#32 = .ok .lookup ∧
  decode 0x00000003#32 = .ok .select ∧ decode 0x00000004#32 = .ok .rsenc ∧
  decode 0x00000005#32 = .error (.reservedOpcode 5) ∧ decode 0x0000000F#32 = .error (.reservedOpcode 15) ∧
  decode 0x00000011#32 = .error (.reservedBits 1) ∧ decode 0x80000000#32 = .error (.reservedBits 0)

/-! ### The five commands: results, errors, completion -/

/-- LOOKUP (R103), whole: the two errors in their order, else the entry of the block table in the shared result registers, every
number as it stands in the table, and nothing else changed but DONE and PEND. -/
def Obligations.LookupReadsOneEntryOfTheBlockTable : Prop :=
  ∀ (s : State) (lvl v : Nat) (c : BlockCfg), lvl = s.ctrl.level.toNat → v = s.vsel.toNat → c = lookupCfg lvl v →
    if ¬ (1 ≤ lvl ∧ lvl ≤ 4) then exec .lookup s = .next (s.afterError 1 1)
    else if ¬ (1 ≤ v ∧ v ≤ 40) then exec .lookup s = .next (s.afterError 1 3)
    else ∃ r : Results,
      exec .lookup s = .next { s with res := r, pend := none, status := { s.status with done := true } } ∧
      r.version.toNat = v ∧ r.width.toNat = 17 + 4 * v ∧ r.nb1.toNat = c.nb1 ∧ r.nb2.toNat = c.nb2 ∧
      r.dbLen.toNat = c.d ∧ r.ebLen.toNat = c.e ∧ r.capacity.toNat = capacityOf v c ∧
      r.dataCw.toNat = dataCodewords c ∧ r.totalCw.toNat = totalCodewords c ∧
      r.effLen = s.res.effLen ∧ r.maskSel = s.res.maskSel ∧ r.fmtWord = s.res.fmtWord ∧ r.verWord = s.res.verWord ∧
      r.score = s.res.score

/-- SELECT (R104), whole: InvalidOption(1), then CapacityExceeded(0) for n > CAP(40) under STRICT = 1; else the smallest version that
holds n (version 40 where none does), its block split, EFFLEN and TRUNCATED, and nothing else changed but DONE and PEND. -/
def Obligations.SelectReportsTheSmallestVersion : Prop :=
  ∀ (s : State) (lvl n : Nat) (cap : Nat → Nat), lvl = s.ctrl.level.toNat → n = s.len.toNat →
    (∀ u, cap u = capacityOf u (lookupCfg lvl u)) →
    if ¬ (1 ≤ lvl ∧ lvl ≤ 4) then exec .select s = .next (s.afterError 1 1)
    else if cap 40 < n ∧ s.ctrl.strict = true then exec .select s = .next (s.afterError 2 0)
    else ∃ (v : Nat) (r : Results),
      exec .select s = .next { s with
        res := r, pend := none, status := { s.status with done := true, truncated := decide (n > cap v) } } ∧
      1 ≤ v ∧ v ≤ 40 ∧ (n ≤ cap 40 → n ≤ cap v ∧ ∀ u, 1 ≤ u → u < v → cap u < n) ∧ (cap 40 < n → v = 40) ∧
      r.version.toNat = v ∧ r.width.toNat = 17 + 4 * v ∧ r.nb1.toNat = (lookupCfg lvl v).nb1 ∧
      r.nb2.toNat = (lookupCfg lvl v).nb2 ∧ r.dbLen.toNat = (lookupCfg lvl v).d ∧ r.ebLen.toNat = (lookupCfg lvl v).e ∧
      r.capacity.toNat = cap v ∧ r.dataCw.toNat = dataCodewords (lookupCfg lvl v) ∧
      r.totalCw.toNat = totalCodewords (lookupCfg lvl v) ∧ r.effLen.toNat = min n (cap v) ∧
      r.maskSel = s.res.maskSel ∧ r.fmtWord = s.res.fmtWord ∧ r.verWord = s.res.verWord ∧ r.score = s.res.score

/-- RSENC (R105), whole: InvalidOption(4), then InvalidOption(5); else the e remainder bytes in RSOUT[0..e−1] and zeros in
RSOUT[e..31], every byte outside RSOUT as before, and nothing else changed but DONE and PEND. -/
def Obligations.RsencWritesTheRemainder : Prop :=
  ∀ (s : State) (e n : Nat), e = s.eccLen.toNat → n = s.len.toNat →
    if ¬ (1 ≤ e ∧ e ≤ 30) then exec .rsenc s = .next (s.afterError 1 4)
    else if n > 255 - e then exec .rsenc s = .next (s.afterError 1 5)
    else ∃ t : State,
      exec .rsenc s = .next t ∧
      (rsDivide (s.inbufBytes n) e).length = e ∧
      (∀ j, j < e → t.rsoutByte? j = (rsDivide (s.inbufBytes n) e)[j]?) ∧
      (∀ j, e ≤ j → j < 32 → t.rsoutByte? j = some 0) ∧
      (∀ a, ¬ (Config.rsoutBase ≤ a ∧ a < Config.rsoutBase + 32) → Memory.get? t.mem a = Memory.get? s.mem a) ∧
      t = { s with mem := t.mem, pend := none, status := { s.status with done := true } }

/-- GENERATE (R102), whole: the three errors in their order, else the seven stages in order, each on the output of the one before,
and the write-back of every result; nothing else changes but DONE and PEND. -/
def Obligations.GenerateRunsTheSevenStages : Prop :=
  ∀ (s : State) (lvl n : Nat) (sel : Selection), lvl = s.ctrl.level.toNat → n = s.len.toNat → sel = selectVersion n lvl →
    if ¬ (1 ≤ lvl ∧ lvl ≤ 4) then exec .generate s = .next (s.afterError 1 1)
    else if s.ctrl.movrEn = true ∧ s.ctrl.movr.toNat > 7 then exec .generate s = .next (s.afterError 1 2)
    else if sel.fits = false ∧ s.ctrl.strict = true then exec .generate s = .next (s.afterError 2 0)
    else
      let w := 17 + 4 * sel.v
      let scratch := layout sel.v
      let len := encodedLength n sel.v sel.cfg
      let cw := encodeCodewords (s.inbufBytes len) sel.v (dataCodewords sel.cfg)
      let ecc := rsBlocks cw sel.cfg
      let ilv := interleave cw ecc sel.cfg
      let mod := pack scratch ilv w
      let fin := maskFinish s.params mod scratch.excl sel.v lvl (if s.ctrl.movrEn then some s.ctrl.movr.toNat else none)
      exec .generate s = .next { s with
        res := {
          version := BitVec.ofNat 6 sel.v, width := BitVec.ofNat 8 w, maskSel := BitVec.ofNat 3 fin.mask
          nb1 := BitVec.ofNat 8 sel.cfg.nb1, nb2 := BitVec.ofNat 8 sel.cfg.nb2
          dbLen := BitVec.ofNat 8 sel.cfg.d, ebLen := BitVec.ofNat 8 sel.cfg.e
          capacity := BitVec.ofNat 16 (capacityOf sel.v sel.cfg), effLen := BitVec.ofNat 16 len
          fmtWord := fin.fmt, verWord := fin.ver
          dataCw := BitVec.ofNat 16 (dataCodewords sel.cfg), totalCw := BitVec.ofNat 16 (totalCodewords sel.cfg)
          score := scoreRegs fin.scores }
        status := { s.status with
          done := true, scoreValid := !s.ctrl.movrEn, truncated := decide (len < n) }
        mem := Memory.write s.mem Config.matrixBase (packMatrix fin.mod w)
        pend := none }

/-- After a GENERATE that succeeds, the result registers hold their numbers unreduced: the symbol's version and block split, EFFLEN =
min(n, CAP), a format word of the level and of MASKSEL, the version word, and TRUNCATED exactly for n > CAP(40); an override puts
MOVR into MASKSEL and zeros into SCORE. -/
def Obligations.GenerateReportsItsSymbol : Prop :=
  ∀ (s : State) (lvl n : Nat), lvl = s.ctrl.level.toNat → n = s.len.toNat → 1 ≤ lvl → lvl ≤ 4 →
    (s.ctrl.movrEn = true → s.ctrl.movr.toNat ≤ 7) →
    (n ≤ capacityOf 40 (lookupCfg lvl 40) ∨ s.ctrl.strict = false) →
    ∃ (t : State) (v : Nat),
      exec .generate s = .next t ∧ 1 ≤ v ∧ v ≤ 40 ∧
      (n ≤ capacityOf 40 (lookupCfg lvl 40) → n ≤ capacityOf v (lookupCfg lvl v) ∧
        ∀ u, 1 ≤ u → u < v → capacityOf u (lookupCfg lvl u) < n) ∧
      (capacityOf 40 (lookupCfg lvl 40) < n → v = 40) ∧
      t.res.version.toNat = v ∧ t.res.width.toNat = 17 + 4 * v ∧
      t.res.nb1.toNat = (lookupCfg lvl v).nb1 ∧ t.res.nb2.toNat = (lookupCfg lvl v).nb2 ∧
      t.res.dbLen.toNat = (lookupCfg lvl v).d ∧ t.res.ebLen.toNat = (lookupCfg lvl v).e ∧
      t.res.capacity.toNat = capacityOf v (lookupCfg lvl v) ∧
      t.res.effLen.toNat = min n (capacityOf v (lookupCfg lvl v)) ∧
      t.res.dataCw.toNat = dataCodewords (lookupCfg lvl v) ∧ t.res.totalCw.toNat = totalCodewords (lookupCfg lvl v) ∧
      t.res.fmtWord = Rom.format (t.res.maskSel.toNat + (lvl - 1) * 8) ∧
      t.res.verWord = (if v ≥ 7 then Rom.vinfo v else 0) ∧
      t.status.truncated = decide (capacityOf 40 (lookupCfg lvl 40) < n) ∧
      t.status.scoreValid = !s.ctrl.movrEn ∧
      (s.ctrl.movrEn = true → t.res.maskSel.toNat = s.ctrl.movr.toNat ∧ t.res.score = Vector.replicate 8 0) ∧
      t.status.done = true ∧ t.status.err = s.status.err ∧ t.status.errInfo = s.status.errInfo ∧ t.pend = none

/-- Every ENGINE step completes, whatever word is pending: PEND becomes NONE and DONE becomes 1 (R101). The step is taken only where a
command is pending. -/
def Obligations.EveryEngineStepCompletes : Prop :=
  (∀ (s : State) (w : Word), s.pend = some w → s.wait = 0 →
    ∃ t, step s = .next t ∧ t.pend = none ∧ t.status.done = true) ∧
  (∀ (s : State) (w : Word), s.turn = .engine w → s.pend = some w)

/-- A command that reports an error changes only ERR, ERRINFO, DONE and PEND, and reports an error of its own row of R182 (R107,
R183). -/
def Obligations.ErroringCommandChangesOnlyTheReport : Prop :=
  ∀ (i : Instr) (s t : State), s.status.err = 0 → exec i s = .next t → t.status.err ≠ 0 →
    t = { s with pend := none, status := { s.status with
            done := true, err := t.status.err, errInfo := t.status.errInfo } } ∧
    (t.status.err, t.status.errInfo) ∈
      (match i with
       | .nop => []
       | .generate => [(1#4, 1#8), (1#4, 2#8), (2#4, 0#8)]
       | .lookup => [(1#4, 1#8), (1#4, 3#8)]
       | .select => [(1#4, 1#8), (2#4, 0#8)]
       | .rsenc => [(1#4, 4#8), (1#4, 5#8)])

/-- InternalInvariant is never raised: no step, of any agent, brings ERR to 3 (R185), nor to a code of 5..15 (R181). -/
def Obligations.ReservedErrorCodesAreNeverReported : Prop :=
  ∀ s t : State, step s = .next t → t.status.err ≠ s.status.err → t.status.err.toNat ∈ [0, 1, 2, 4]

/-- No command reads a flag (R048): with any other STATUS the same command gives the same next state but for STATUS. Either it raises the
same error in both, or it succeeds in both, leaves ERR and ERRINFO, and writes the same flags: SCORE_VALID and TRUNCATED for GENERATE,
TRUNCATED for SELECT, and neither for the others; DONE is set and OVERRUN left in every case. -/
def Obligations.CommandsReadNoFlag : Prop :=
  ∀ (i : Instr) (s : State) (f : Status), ∃ t t' : State,
    exec i s = .next t ∧ exec i { s with status := f } = .next t' ∧ { t' with status := t.status } = t ∧
    ((∃ e info, e ≠ 0 ∧ t = s.afterError e info ∧ t' = { s with status := f }.afterError e info) ∨
     (t.status.done = true ∧ t'.status.done = true ∧
      t.status.overrun = s.status.overrun ∧ t'.status.overrun = f.overrun ∧
      t.status.err = s.status.err ∧ t'.status.err = f.err ∧
      t.status.errInfo = s.status.errInfo ∧ t'.status.errInfo = f.errInfo ∧
      (if i = .generate then t'.status.scoreValid = t.status.scoreValid
       else t.status.scoreValid = s.status.scoreValid ∧ t'.status.scoreValid = f.scoreValid) ∧
      (if i = .generate ∨ i = .select then t'.status.truncated = t.status.truncated
       else t.status.truncated = s.status.truncated ∧ t'.status.truncated = f.truncated)))

/-! ### Frames -/

/-- What no command touches (R183): the host-written registers, INBUF, OVERRUN, and everything that is not the block's. -/
def Obligations.EngineNeverWritesOperands : Prop :=
  ∀ (i : Instr) (s t : State), exec i s = .next t →
    t.ctrl = s.ctrl ∧ t.len = s.len ∧ t.vsel = s.vsel ∧ t.eccLen = s.eccLen ∧ t.status.overrun = s.status.overrun ∧
    (∀ k, k < 4096 → Memory.get? t.mem (Config.inbufBase + k) = Memory.get? s.mem (Config.inbufBase + k)) ∧
    t.host = s.host ∧ t.params = s.params ∧ t.wait = s.wait ∧ t.sched = s.sched ∧ t.resets = s.resets ∧
    t.draws = s.draws ∧ t.resetCount = s.resetCount

/-- The frame of the register-only commands NOP, LOOKUP and SELECT: every byte of memory, SCORE_VALID, and the result registers GENERATE
alone writes are unchanged; NOP and LOOKUP leave EFFLEN and TRUNCATED too, and NOP every result register. -/
def Obligations.RegisterCommandsFrame : Prop :=
  ∀ (i : Instr) (s t : State), i = .nop ∨ i = .lookup ∨ i = .select → exec i s = .next t →
    (∀ a, Memory.get? t.mem a = Memory.get? s.mem a) ∧ t.draws = s.draws ∧
    t.status.scoreValid = s.status.scoreValid ∧ t.status.overrun = s.status.overrun ∧
    t.res.maskSel = s.res.maskSel ∧ t.res.fmtWord = s.res.fmtWord ∧ t.res.verWord = s.res.verWord ∧ t.res.score = s.res.score ∧
    (i = .nop ∨ i = .lookup → t.res.effLen = s.res.effLen ∧ t.status.truncated = s.status.truncated) ∧
    (i = .nop → t.res = s.res ∧ t.status.err = s.status.err ∧ t.status.errInfo = s.status.errInfo)

/-- The frame of the storing commands: RSENC stores the 32 bytes of RSOUT and GENERATE the 3917 bytes of MATRIX; every other byte reads
as before, and RSENC leaves every result register, SCORE_VALID and TRUNCATED alone. -/
def Obligations.StoringCommandsFrame : Prop :=
  (∀ s t : State, exec .rsenc s = .next t →
    (∀ a, ¬ (Config.rsoutBase ≤ a ∧ a < Config.rsoutBase + Config.rsoutSize) → Memory.get? t.mem a = Memory.get? s.mem a) ∧
    t.res = s.res ∧ t.status.scoreValid = s.status.scoreValid ∧ t.status.truncated = s.status.truncated ∧
    t.status.overrun = s.status.overrun) ∧
  (∀ s t : State, exec .generate s = .next t →
    (∀ a, ¬ (Config.matrixBase ≤ a ∧ a < Config.matrixBase + Config.matrixBytes) →
      Memory.get? t.mem a = Memory.get? s.mem a) ∧
    t.status.overrun = s.status.overrun)

/-- Only the ENGINE writes results: a HOST step leaves every result register, SCORE, SCORE_VALID, TRUNCATED and every byte of RSOUT and
MATRIX alone (R040, R070, R043). -/
def Obligations.HostStepsNeverWriteResults : Prop :=
  ∀ s t : State, s.turn = .host → step s = .next t →
    t.res = s.res ∧ t.status.scoreValid = s.status.scoreValid ∧ t.status.truncated = s.status.truncated ∧
    (∀ a, isRsout a = true ∨ isMatrix a = true → Memory.get? t.mem a = Memory.get? s.mem a)

/-- No step of any agent changes the implementation parameters or the host's program (that both stand in State is the model's choice, log
entries 1 and 5). -/
def Obligations.NoStepChangesParametersOrProgram : Prop :=
  ∀ s t : State, step s = .next t → t.params = s.params ∧ t.host.prog = s.host.prog

/-! ### The invariant and reset -/

/-- The machine right after reset (R200): ID reads its hardwired value and every other register 0, PEND is NONE, IRQ is 0, and no
byte of INBUF, RSOUT or MATRIX has been written (each holds a free value, log entry 3). -/
def Obligations.ResetValues : Prop :=
  State.reset.readReg 0x000 = 0x51520107#32 ∧
  (∀ off, off ≠ 0x000 → State.reset.readReg off = 0) ∧
  State.reset.ctrl = { ie := false, strict := false, movrEn := false, movr := 0, level := 0 } ∧
  State.reset.pend = none ∧ State.reset.irq = false ∧
  (∀ a, Memory.get? State.reset.mem a = none)

/-- The invariant holds right after reset. -/
def Obligations.ResetMeetsTheInvariant : Prop := State.reset.Inv

/-- Every step of every agent keeps the invariant, from every state that has it: the memory stays in canonical form, RSOUT and MATRIX
are written whole, ERR and ERRINFO are a pair of R181, a pending command's report is clear, VERSION and WIDTH belong together, SCORE
is 0 where it is not valid, and FMTWORD and VERWORD are words of their tables. -/
def Obligations.EveryStepKeepsTheInvariant : Prop :=
  ∀ s t : State, s.Inv → step s = .next t → t.Inv

/-- A platform reset, from any state, even with a command pending (R202): every register takes its reset value, PEND becomes NONE, no
buffer byte is written any more, and the unwritten bytes take the next draw (log entry 3); the host and the parameters are not the
block's and stay (the model's choice, log entry 6). -/
def Obligations.PlatformResetResetsTheBlock : Prop :=
  ∀ s : State, s.turn = .platform → ∃ t, step s = .next t ∧
    t.ctrl = State.reset.ctrl ∧ t.status = State.reset.status ∧ t.len = 0 ∧ t.vsel = 0 ∧ t.eccLen = 0 ∧
    t.res = State.reset.res ∧ t.pend = none ∧ (∀ a, Memory.get? t.mem a = none) ∧
    t.host = s.host ∧ t.params = s.params ∧ t.resetCount = s.resetCount + 1

/-! ### The host interface -/

/-- Which accesses the block takes (R062, R063, R064, R065): a 32-bit aligned access to the register range, or a naturally aligned access
of any width to INBUF, RSOUT or the MATRIX region; every other read or write is a bus error and has no result. -/
def Obligations.BusErrorsAreExactlyTheIllegalAccesses : Prop :=
  ∀ (s : State) (a : Addr) (n : Width) (v : Word),
    let legal := (a.toNat < 0x100 ∧ n = .w4 ∧ a.toNat % 4 = 0) ∨
      ((0x1000 ≤ a.toNat ∧ a.toNat < 0x2000 ∨ 0x2000 ≤ a.toNat ∧ a.toNat < 0x2020 ∨ 0x4000 ≤ a.toNat ∧ a.toNat < 0x5000) ∧
        a.toNat % n.bytes = 0)
    ((s.memRead a n).isSome = true ↔ legal) ∧ ((s.memWrite a n v).isSome = true ↔ legal)

/-- A bus error is a fault of the HOST step with the access's address, width and direction (R188), for both kinds of access. -/
def Obligations.BusErrorFaultsTheHostStep : Prop :=
  ∀ (s : State) (a : Addr) (n : Width), s.turn = .host → accessLegal a n = false →
    (∀ v, s.host.stmt? = some (.wr n a v) → step s = .fault (.busError a n .write)) ∧
    (∀ r, s.host.stmt? = some (.rd n r a) → step s = .fault (.busError a n .read))

/-- A legal access is one HOST step: a write statement makes its MemWrite, a read statement puts the value of its MemRead into its host
register, and the host goes to the next statement (R092, R073). The tick and the draw are the model's (log entries 2 and 4). -/
def Obligations.HostAccessStatements : Prop :=
  ∀ (s : State) (a : Addr) (n : Width), s.turn = .host → accessLegal a n = true →
    (∀ v, s.host.stmt? = some (.wr n a v) →
      step s = .next ((s.tick.writeValue a n (s.host.writeSrc v)).withHost s.host.advance)) ∧
    (∀ r, s.host.stmt? = some (.rd n r a) →
      step s = .next (s.tick.drawn.withHost (s.host.set r (s.tick.readValue a n)).advance))

/-- Acceptance of a command (R100): a 32-bit write of c to CMD while BUSY = 0 puts c into PEND and clears DONE, ERR and ERRINFO; OVERRUN,
SCORE_VALID, TRUNCATED and every other register, the memory and the host keep their values. While BUSY = 1 the write is dropped. -/
def Obligations.AcceptanceOfACommand : Prop :=
  ∀ (s : State) (c : Word),
    (s.pend = none → ∃ t, s.memWrite 0x008 .w4 c = some t ∧ t.pend = some c ∧
      t.status = { s.status with done := false, err := 0, errInfo := 0 } ∧
      t.ctrl = s.ctrl ∧ t.len = s.len ∧ t.vsel = s.vsel ∧ t.eccLen = s.eccLen ∧ t.res = s.res ∧ t.mem = s.mem ∧
      t.host = s.host ∧ t.params = s.params) ∧
    (s.pend ≠ none → s.memWrite 0x008 .w4 c = some { s with status := { s.status with overrun := true } })

/-- While BUSY = 1 (R205): a write to CTRL, CMD, LEN, VSEL, ECCLEN or INBUF changes nothing but OVERRUN ← 1; a write to STATUS is not
dropped; a write to a read-only location changes nothing at all; an access the block rejects is a bus error. Whatever a host access
does, the operands, INBUF and PEND stay as they were at the acceptance. -/
def Obligations.BusyBlockDropsWrites : Prop :=
  ∀ (s : State) (a : Addr) (n : Width) (v : Word), s.pend ≠ none →
    (accessLegal a n = false → s.memWrite a n v = none ∧ s.memRead a n = none) ∧
    (accessLegal a n = true →
      (a.toNat ∈ [0x004, 0x008, 0x010, 0x014, 0x018] ∨ (0x1000 ≤ a.toNat ∧ a.toNat < 0x2000) →
        s.memWrite a n v = some { s with status := { s.status with overrun := true } }) ∧
      (a.toNat = 0x00C → s.memWrite a n v = some { s with status := { s.status with
        done := s.status.done && !v.getLsbD 1, overrun := s.status.overrun && !v.getLsbD 2 } }) ∧
      (a.toNat ∉ [0x004, 0x008, 0x00C, 0x010, 0x014, 0x018] → ¬ (0x1000 ≤ a.toNat ∧ a.toNat < 0x2000) →
        s.memWrite a n v = some s)) ∧
    (∀ t, s.memWrite a n v = some t →
      t.ctrl = s.ctrl ∧ t.len = s.len ∧ t.vsel = s.vsel ∧ t.eccLen = s.eccLen ∧ t.mem = s.mem ∧ t.pend = s.pend)

/-- A command runs on the operands in place at its acceptance (R205, R210): while it waits for its ENGINE step and the platform asserts no
reset, k host steps bring that step k nearer, and leave the pending word, CTRL, LEN, VSEL, ECCLEN, the parameters, every byte of
memory, what every unwritten byte holds, and every result register as they were, whatever the host's program does. The fields that
count the steps and the resets are the model's (log entries 2, 3 and 6). -/
def Obligations.PendingCommandKeepsItsOperands : Prop :=
  ∀ (k : Nat) (s t : State) (w : Word), s.pend = some w → s.resets = [] → k ≤ s.wait →
    Host.Core.run core k s = .next t →
    t.pend = some w ∧ t.wait = s.wait - k ∧ t.resets = [] ∧ t.ctrl = s.ctrl ∧ t.len = s.len ∧ t.vsel = s.vsel ∧
    t.eccLen = s.eccLen ∧ t.params = s.params ∧ (∀ a, Memory.get? t.mem a = Memory.get? s.mem a) ∧ t.res = s.res ∧
    t.resetCount = s.resetCount ∧ (∀ a, t.memByte a = s.memByte a)

/-- The end of a run (R213): where the host has ended with a command pending, the ENGINE step comes after the host steps left to wait, and
then the run has ended: PEND = NONE, DONE = 1. The count of the steps and the idle step are the model's (log entries 2 and 11). -/
def Obligations.EngineStepComesAfterHalt : Prop :=
  ∀ (s : State) (w : Word), s.pend = some w → s.resets = [] → s.host.ended = true →
    ∃ t : State, Host.Core.run core (s.wait + 1) s = .next t ∧ t.pend = none ∧ t.status.done = true ∧ t.runEnded = true

/-- A write to STATUS clears DONE and OVERRUN where the written bit is 1 and changes nothing else, whatever BUSY is (R037). -/
def Obligations.StatusIsWriteOneToClear : Prop :=
  ∀ (s : State) (v : Word), s.memWrite 0x00C .w4 v = some { s with status := { s.status with
    done := if v.getLsbD 1 then false else s.status.done
    overrun := if v.getLsbD 2 then false else s.status.overrun } }

/-- Effects of accesses (R070): a legal write to ID, a read-only register, a reserved offset, RSOUT or MATRIX changes nothing; a write
to STATUS leaves its read-only bits; a legal write anywhere but CMD is idempotent; a read changes nothing (but the model's own draw
counter, log entry 4). -/
def Obligations.EffectsOfHostAccesses : Prop :=
  ∀ (s t : State) (a : Addr) (n : Width) (v : Word),
    (accessLegal a n = true →
      (a.toNat < 0x100 ∧ a.toNat ∉ [0x004, 0x008, 0x00C, 0x010, 0x014, 0x018]) ∨ 0x2000 ≤ a.toNat →
      s.memWrite a n v = some s) ∧
    (a.toNat = 0x00C → s.memWrite a n v = some t →
      t.busy = s.busy ∧ t.status.scoreValid = s.status.scoreValid ∧ t.status.truncated = s.status.truncated ∧
      t.status.err = s.status.err ∧ t.status.errInfo = s.status.errInfo) ∧
    (a.toNat ≠ 0x008 → s.memWrite a n v = some t → t.memWrite a n v = some t) ∧
    (∀ x, s.memRead a n = some (x, t) → t = { s with draws := s.draws + 1 })

/-- Byte order and mixed widths (R066, R067): while BUSY = 0 a legal write of n bytes to INBUF puts bits 8·j+7:8·j of the value at address
a + j and leaves every other byte; a later legal read of m bytes inside those n returns exactly the bytes it names. -/
def Obligations.InbufWritesAreLittleEndian : Prop :=
  ∀ (s : State) (a : Addr) (n : Width) (v : Word), s.pend = none → 0x1000 ≤ a.toNat → a.toNat < 0x2000 → accessLegal a n = true →
    ∃ t : State, s.memWrite a n v = some t ∧
      (∀ j, j < n.bytes → Memory.get? t.mem (a.toNat + j) = some (v.extractLsb' (8 * j) 8)) ∧
      (∀ b, b < a.toNat ∨ a.toNat + n.bytes ≤ b → Memory.get? t.mem b = Memory.get? s.mem b) ∧
      (∀ (b : Addr) (m : Width), accessLegal b m = true → a.toNat ≤ b.toNat → b.toNat + m.bytes ≤ a.toNat + n.bytes →
        (t.readValue b m).toNat = v.toNat / 2 ^ (8 * (b.toNat - a.toNat)) % 2 ^ (8 * m.bytes))

/-- What the host reads while BUSY = 1 (R072): ID, CTRL, CMD, LEN, VSEL, ECCLEN, a reserved offset and every byte of INBUF read as they
do while BUSY = 0, and STATUS too but for its BUSY bit. -/
def Obligations.BusyBlockStillReadsItsOperands : Prop :=
  ∀ (s : State) (a : Addr) (n : Width), accessLegal a n = true →
    (a.toNat ∈ [0x000, 0x004, 0x008, 0x010, 0x014, 0x018, 0x01C, 0x054, 0x058, 0x05C] ∨ (0x080 ≤ a.toNat ∧ a.toNat < 0x2000) →
      s.readValue a n = { s with pend := none }.readValue a n) ∧
    (a.toNat = 0x00C → s.pend ≠ none → s.readValue a n = { s with pend := none }.readValue a n ||| 1#32)

/-- The read-write registers (R022, R023, R204): while BUSY = 0 a host write to CTRL, LEN, VSEL or ECCLEN changes that register and nothing
else in the machine, and what was written is read back in the defined bits and 0 in the reserved ones; CMD reads 0 in every state. -/
def Obligations.ReadWriteRegistersKeepTheirFields : Prop :=
  (∀ (s : State) (v : Word), s.pend = none →
    (∃ t, s.memWrite 0x004 .w4 v = some t ∧ t = { s with ctrl := t.ctrl } ∧ t.readValue 0x004 .w4 = v &&& 0x000007F7#32) ∧
    (∃ t, s.memWrite 0x010 .w4 v = some t ∧ t = { s with len := t.len } ∧ t.readValue 0x010 .w4 = v &&& 0x0000FFFF#32) ∧
    (∃ t, s.memWrite 0x014 .w4 v = some t ∧ t = { s with vsel := t.vsel } ∧ t.readValue 0x014 .w4 = v &&& 0x0000003F#32) ∧
    (∃ t, s.memWrite 0x018 .w4 v = some t ∧ t = { s with eccLen := t.eccLen } ∧ t.readValue 0x018 .w4 = v &&& 0x000000FF#32)) ∧
  (∀ s : State, s.readValue 0x008 .w4 = 0)

/-- In every state ID reads its hardwired value (R021) and each reserved offset 0 (R064). STATUS as the host reads it (R023,
R025): each flag in its bit, BUSY a view of PEND, the reserved bits 0. CTRL: each field in its bits, the reserved bits 0; LEN, VSEL and ECCLEN in their low bits. The result registers and SCORE while BUSY = 0 (R023, R040, R041):
each at its own offset, zero-extended. -/
def Obligations.RegistersReadAsTheMapSays : Prop :=
  (∀ s : State, s.readReg 0x000 = 0x51520107#32) ∧
  (∀ (s : State) (off : Nat), off ∈ [0x01C, 0x054, 0x058, 0x05C] ∨ (0x080 ≤ off ∧ off < 0x100) → s.readReg off = 0) ∧
  (∀ s : State,
    (s.readReg 0x00C).getLsbD 0 = s.pend.isSome ∧ (s.readReg 0x00C).getLsbD 1 = s.status.done ∧
    (s.readReg 0x00C).getLsbD 2 = s.status.overrun ∧ (s.readReg 0x00C).getLsbD 3 = s.status.scoreValid ∧
    (s.readReg 0x00C).getLsbD 4 = s.status.truncated ∧ (s.readReg 0x00C).extractLsb' 8 4 = s.status.err ∧
    (s.readReg 0x00C).extractLsb' 16 8 = s.status.errInfo ∧ (s.readReg 0x00C).extractLsb' 5 3 = 0 ∧
    (s.readReg 0x00C).extractLsb' 12 4 = 0 ∧ (s.readReg 0x00C).extractLsb' 24 8 = 0) ∧
  (∀ s : State,
    (s.readReg 0x004).getLsbD 0 = s.ctrl.ie ∧ (s.readReg 0x004).getLsbD 1 = s.ctrl.strict ∧
    (s.readReg 0x004).getLsbD 2 = s.ctrl.movrEn ∧ (s.readReg 0x004).getLsbD 3 = false ∧
    (s.readReg 0x004).extractLsb' 4 4 = s.ctrl.movr ∧ (s.readReg 0x004).extractLsb' 8 3 = s.ctrl.level ∧
    (s.readReg 0x004).extractLsb' 11 21 = 0 ∧
    s.readReg 0x010 = s.len.setWidth 32 ∧ s.readReg 0x014 = s.vsel.setWidth 32 ∧ s.readReg 0x018 = s.eccLen.setWidth 32) ∧
  (∀ s : State, s.pend = none →
    s.readReg 0x020 = s.res.version.setWidth 32 ∧ s.readReg 0x024 = s.res.width.setWidth 32 ∧
    s.readReg 0x028 = s.res.maskSel.setWidth 32 ∧ s.readReg 0x02C = s.res.nb1.setWidth 32 ∧
    s.readReg 0x030 = s.res.nb2.setWidth 32 ∧ s.readReg 0x034 = s.res.dbLen.setWidth 32 ∧
    s.readReg 0x038 = s.res.ebLen.setWidth 32 ∧ s.readReg 0x03C = s.res.capacity.setWidth 32 ∧
    s.readReg 0x040 = s.res.effLen.setWidth 32 ∧ s.readReg 0x044 = s.res.fmtWord.setWidth 32 ∧
    s.readReg 0x048 = s.res.verWord.setWidth 32 ∧ s.readReg 0x04C = s.res.dataCw.setWidth 32 ∧
    s.readReg 0x050 = s.res.totalCw.setWidth 32 ∧
    (∀ k : Fin 8, s.readReg (0x060 + 4 * k.val) = s.res.score.get k)) ∧
  (∀ (s : State) (a : Addr), a.toNat < 0x100 → s.readValue a .w4 = s.readReg a.toNat)

/-- What a host read of a buffer returns while BUSY = 0 (R061, R066, R068): byte j of the value is the byte at a + j, what was written
there or what an unwritten byte holds; host addresses 0x4F4D..0x4FFF read 0; the value is zero-extended; and module i of MATRIX is bit
i mod 8 of byte i div 8. An unwritten byte keeps what it holds through every step but a reset (R201; the free value is log entry 3). -/
def Obligations.BufferReadsReturnTheirBytes : Prop :=
  (∀ (s : State) (a : Addr) (n : Width), s.pend = none → accessLegal a n = true → 0x1000 ≤ a.toNat →
    (s.readValue a n).toNat < 2 ^ (8 * n.bytes) ∧
    ∀ j, j < n.bytes →
      (isStorage (a.toNat + j) = true →
        (s.readValue a n).extractLsb' (8 * j) 8 = s.memByte (a.toNat + j) ∧
        ∀ b, Memory.get? s.mem (a.toNat + j) = some b → s.memByte (a.toNat + j) = b) ∧
      (0x4F4D ≤ a.toNat + j → (s.readValue a n).extractLsb' (8 * j) 8 = 0)) ∧
  (∀ (s : State) (i : Nat) (m : Bool), s.pend = none → i < 8 * 3917 → s.matrixModule? i = some m →
    (s.readValue (BitVec.ofNat 15 (0x4000 + i / 8)) .w1).getLsbD (i % 8) = m) ∧
  (∀ s t : State, s.turn ≠ .platform → step s = .next t →
    ∀ a, Memory.get? t.mem a = none → Memory.get? s.mem a = none ∧ t.memByte a = s.memByte a)

/-- The interrupt (R190): IRQ rises only at an ENGINE step with IE = 1 or at a host write of CTRL that sets IE while DONE = 1; it falls only
at a host write that clears DONE, accepts a command or clears IE, or at a reset of the block. -/
def Obligations.InterruptRisesAndFallsOnlyAsSaid : Prop :=
  ∀ s t : State, step s = .next t →
    s.irq = (s.status.done && s.ctrl.ie) ∧
    (s.irq = false → t.irq = true →
      ((∃ w, s.turn = .engine w) ∧ s.ctrl.ie = true) ∨
      (s.turn = .host ∧ s.status.done = true ∧ ∃ v, s.host.stmt? = some (.wr .w4 0x004 v) ∧
        (s.host.writeSrc v).getLsbD 0 = true)) ∧
    (s.irq = true → t.irq = false →
      s.turn = .platform ∨
      (s.turn = .host ∧ ∃ v,
        (s.host.stmt? = some (.wr .w4 0x00C v) ∧ (s.host.writeSrc v).getLsbD 1 = true) ∨
        s.host.stmt? = some (.wr .w4 0x008 v) ∨
        (s.host.stmt? = some (.wr .w4 0x004 v) ∧ (s.host.writeSrc v).getLsbD 0 = false)))

/-- OVERRUN (R034, R189): it is set only by a host write dropped while BUSY = 1, a legal one to CTRL, CMD, LEN, VSEL, ECCLEN or INBUF, and cleared only by a host write to STATUS with bit 2 = 1
or by a reset of the block. -/
def Obligations.OverrunOnlyByADroppedWrite : Prop :=
  ∀ s t : State, step s = .next t →
    (s.status.overrun = false → t.status.overrun = true →
      s.turn = .host ∧ s.pend ≠ none ∧ ∃ n a v, s.host.stmt? = some (.wr n a v) ∧ accessLegal a n = true ∧
        (a.toNat ∈ [0x004, 0x008, 0x010, 0x014, 0x018] ∨ (0x1000 ≤ a.toNat ∧ a.toNat < 0x2000))) ∧
    (s.status.overrun = true → t.status.overrun = false →
      s.turn = .platform ∨
      (s.turn = .host ∧ ∃ v, s.host.stmt? = some (.wr .w4 0x00C v) ∧ (s.host.writeSrc v).getLsbD 2 = true))

/-- The host-only statements (R092): `li`, `addi` and `andi` write their host register and go on, in any program; a branch whose condition
fails goes on, wherever its label may be; one whose condition holds goes to its label. None of them touches the block or its memory.
That a taken branch to a label that stands nowhere is refused is the model's choice (log entry 9), and so is the idle step at `halt`
(log entry 11). The place of a label is the statement that carries it, the first one where several do (the model's choice, log entry 9),
and there is none only where no statement carries it. -/
def Obligations.HostOnlyStatements : Prop :=
  (∀ (l : Label) (prog : List HostLine),
    (∀ k, findLabel l prog = some k →
      (∃ line, prog[k]? = some line ∧ l ∈ line.labels) ∧ ∀ j line, j < k → prog[j]? = some line → l ∉ line.labels) ∧
    (findLabel l prog = none → ∀ line ∈ prog, l ∉ line.labels)) ∧
  (∀ (s : State) (r q : HReg) (v : Word),
    execHost (.li r v) s = .next (s.withHost (s.host.set r v).advance) ∧
    execHost (.addi r q v) s = .next (s.withHost (s.host.set r (s.host.get q + v)).advance) ∧
    execHost (.andi r q v) s = .next (s.withHost (s.host.set r (s.host.get q &&& v)).advance)) ∧
  (∀ (s : State) (r : HReg) (v : Word) (l : Label),
    (s.host.get r ≠ 0 → execHost (.beqz r l) s = .next (s.withHost s.host.advance)) ∧
    (s.host.get r = 0 → execHost (.bnez r l) s = .next (s.withHost s.host.advance)) ∧
    (s.host.get r = v → execHost (.bne r v l) s = .next (s.withHost s.host.advance))) ∧
  (∀ (s : State) (r : HReg) (v : Word) (l : Label) (k : Nat), findLabel l s.host.prog = some k →
    (s.host.get r = 0 → execHost (.beqz r l) s = .next (s.withHost { s.host with pos := k })) ∧
    (s.host.get r ≠ 0 → execHost (.bnez r l) s = .next (s.withHost { s.host with pos := k })) ∧
    (s.host.get r ≠ v → execHost (.bne r v l) s = .next (s.withHost { s.host with pos := k })) ∧
    execHost (.jmp l) s = .next (s.withHost { s.host with pos := k })) ∧
  (∀ (s : State) (r : HReg) (v : Word) (l : Label), findLabel l s.host.prog = none →
    (s.host.get r = 0 → execHost (.beqz r l) s = .refused (.noSuchLabel l)) ∧
    (s.host.get r ≠ 0 → execHost (.bnez r l) s = .refused (.noSuchLabel l)) ∧
    (s.host.get r ≠ v → execHost (.bne r v l) s = .refused (.noSuchLabel l)) ∧
    execHost (.jmp l) s = .refused (.noSuchLabel l)) ∧
  (∀ s : State, execHost .halt s = .next s)

/-! ### Stage S1: the selector -/

/-- The block table (R112, R115): at each level the capacity strictly rises with the version, and the total number of codewords depends
on the version only. -/
def Obligations.BlockTableCapacitiesRise : Prop :=
  ∀ lvl v : Nat, 1 ≤ lvl → lvl ≤ 4 → 1 ≤ v →
    (v ≤ 39 → capacityOf v (lookupCfg lvl v) < capacityOf (v + 1) (lookupCfg lvl (v + 1))) ∧
    (v ≤ 40 → totalCodewords (lookupCfg lvl v) = totalCodewords (lookupCfg 1 v))

/-- The encoded length (R133): for every length, level and version it is min(n, CAP(v)), at both sides of v = 9/10. -/
def Obligations.EncodedLengthIsTheCapacityLimit : Prop :=
  ∀ n lvl v : Nat, 1 ≤ lvl → lvl ≤ 4 → 1 ≤ v → v ≤ 40 →
    encodedLength n v (lookupCfg lvl v) = min n (capacityOf v (lookupCfg lvl v))

/-! ### Stage S2: the layout -/

/-- The address of a cell in the exclusion bitmap (R118): the same for (x, y) and (y, x), different for every other pair, and inside the
w·(w+1)/2 entries of the array. -/
def Obligations.ExclusionAddressIsSymmetricAndExact : Prop :=
  (∀ x y : Nat, xbit (x, y) = xbit (y, x)) ∧
  (∀ x y x' y' : Nat, xbit (x, y) = xbit (x', y') → (x = x' ∧ y = y') ∨ (x = y' ∧ y = x')) ∧
  (∀ w x y : Nat, x < w → y < w → xbit (x, y) < (w * (w + 1)) / 2)

/-- After the layout every dark cell is reserved (R130), so every non-reserved cell is light. -/
def Obligations.LayoutReservesEveryDarkCell : Prop :=
  ∀ v x y : Nat, x < symbolWidth v → y < symbolWidth v →
    Bitmap.cell (layout v).mod (symbolWidth v) (x, y) = true → isReserved (layout v).excl (x, y) = true

/-- The layout draws the patterns where R120 to R130 put them: for every version, the walk of R125 meets exactly the listed alignment centres,
each once; and cell by cell the module is dark and the cell reserved exactly as the finders, separators, alignment patterns, timing
patterns, format strips, version blocks and the dark module say. -/
def Obligations.LayoutDrawsTheStructuralPatterns : Prop :=
  ∀ v, 1 ≤ v → v ≤ 40 →
    (alignCentres v).Nodup ∧ (∀ c, c ∈ alignCentres v ↔ c ∈ listedCentres v) ∧
    ∀ x y, x < symbolWidth v → y < symbolWidth v →
      Bitmap.cell (layout v).mod (symbolWidth v) (x, y) = structuralDark v (x, y) ∧
      isReserved (layout v).excl (x, y) = structuralReserved v (x, y)

/-! ### Stage S3: the codewords -/

/-- The codeword buffer (R131 to R135): exactly M bytes, whose nibbles are the header (0x4 and the length in 8 or
16 bits), the data bytes verbatim, the terminator 0000, and whose bytes after that are the pad 0xEC, 0x11, 0xEC, …. -/
def Obligations.CodewordBufferIsExactlyFull : Prop :=
  ∀ (lvl v : Nat) (value : List Byte), 1 ≤ lvl → lvl ≤ 4 → 1 ≤ v → v ≤ 40 →
    value.length ≤ capacityOf v (lookupCfg lvl v) →
    let m := dataCodewords (lookupCfg lvl v)
    let h := value.length + (if v ≤ 9 then 2 else 3)
    let cw := encodeCodewords value v m
    let l := BitVec.ofNat 16 value.length
    cw.length = m ∧ h ≤ m ∧
    (cw.take h).flatMap byteNibbles =
      (if v ≤ 9 then [0x4, l.extractLsb' 4 4, l.extractLsb' 0 4]
       else [0x4, l.extractLsb' 12 4, l.extractLsb' 8 4, l.extractLsb' 4 4, l.extractLsb' 0 4]) ++
      value.flatMap byteNibbles ++ [0] ∧
    (∀ j, h ≤ j → j < m → cw[j]? = some (if (j - h) % 2 = 0 then 0xEC else 0x11))

/-! ### Stage S4: Reed-Solomon -/

/-- The antilog and log tables (R138, R139): EXP[0] = 1, EXP[i] is EXP[i−1] times x reduced by 0x11D, LOG inverts EXP, and LOG[0] is the
sentinel 255. -/
def Obligations.ExpAndLogTables : Prop :=
  Rom.exp 0 = 0x01 ∧
  (∀ i, 1 ≤ i → i ≤ 254 → (Rom.exp i).toNat =
    (if 2 * (Rom.exp (i - 1)).toNat ≥ 0x100 then (2 * (Rom.exp (i - 1)).toNat) ^^^ 0x11D
     else 2 * (Rom.exp (i - 1)).toNat)) ∧
  (∀ i, i ≤ 254 → Rom.log (Rom.exp i) = i) ∧ Rom.log 0 = 255

/-- The laws of multiplication in GF(256) (R137, R142): commutative, associative, distributive over ⊕, identity 0x01, zero absorbs, and
multiplication by 0x02 is a shift by one reduced by 0x11D. -/
def Obligations.FieldLaws : Prop :=
  ∀ a b c : Byte, gfMul a b = gfMul b a ∧ gfMul (gfMul a b) c = gfMul a (gfMul b c) ∧
    gfMul a (b ^^^ c) = gfMul a b ^^^ gfMul a c ∧ gfMul 1 a = a ∧ gfMul 0 a = 0 ∧
    gfMul 2 a = (if 128 ≤ a.toNat then (a <<< 1) ^^^ 0x1D else a <<< 1)

/-- The generator polynomial for every e that RSENC accepts (R143, R144): e + 1 coefficients, monic, none of them zero, and α^0..α^(e−1)
are roots. -/
def Obligations.GeneratorPolynomials : Prop :=
  ∀ e, 1 ≤ e → e ≤ 30 →
    (genPoly e).length = e + 1 ∧ (genPoly e)[e]? = some 1 ∧ (∀ g ∈ genPoly e, g ≠ 0) ∧
    (∀ i, i < e → gfEval (genPoly e).reverse (Rom.exp i) = 0)

/-- The Reed-Solomon property (R147): for every data block and every e in 1..30 there are e ECC bytes, and the codeword data ‖ ecc has zero
syndrome: it vanishes at α^0, …, α^(e−1). The same of every block of a symbol, its data bytes taken from CW and its ECC bytes from
ECCBUF where R146 puts them. -/
def Obligations.CodewordsHaveZeroSyndrome : Prop :=
  (∀ (data : List Byte) (e : Nat), 1 ≤ e → e ≤ 30 →
    (rsDivide data e).length = e ∧ ∀ j, j < e → gfEval (data ++ rsDivide data e) (Rom.exp j) = 0) ∧
  (∀ (c : BlockCfg) (cw : List Byte), 1 ≤ c.e → c.e ≤ 30 →
    (rsBlocks cw c).length = c.e * (c.nb1 + c.nb2) ∧
    ∀ b j, b < c.nb1 + c.nb2 → j < c.e →
      gfEval ((cw.drop (b * c.d + (b - c.nb1))).take (if b < c.nb1 then c.d else c.d + 1) ++
        ((rsBlocks cw c).drop (b * c.e)).take c.e) (Rom.exp j) = 0)

/-! ### Stage S5: the interleaver -/

/-- The interleaved stream (R149, R150): its length is T, and every position holds the byte the round-robin puts there: full data rounds,
the final partial round of the long blocks, then the ECC rounds. -/
def Obligations.InterleavedPositions : Prop :=
  ∀ (c : BlockCfg) (cw ecc : List Byte), 1 ≤ c.nb1 + c.nb2 →
    let nb := c.nb1 + c.nb2
    let m := dataCodewords c
    let ilv := interleave cw ecc c
    ilv.length = totalCodewords c ∧
    (∀ q, q < c.d * nb → ilv[q]? = some (cw.getD ((q % nb) * c.d + (q % nb - c.nb1) + q / nb) 0)) ∧
    (∀ q, c.d * nb ≤ q → q < m →
      ilv[q]? = some (cw.getD ((c.nb1 + (q - c.d * nb)) * c.d + (q - c.d * nb) + c.d) 0)) ∧
    (∀ q, m ≤ q → q < totalCodewords c → ilv[q]? = some (ecc.getD (((q - m) % nb) * c.e + (q - m) / nb) 0))

/-! ### Stage S6: the packer -/

/-- The packer on the layout of version v (R152, R153): bit i of the stream, MSB-first, is the module of cell i of the path; the cells of the
path after the last bit stay light; and no reserved cell is written. -/
def Obligations.PackerFollowsThePath : Prop :=
  ∀ (v : Nat) (ilv : List Byte), 1 ≤ v →
    let w := symbolWidth v
    let lay := layout v
    (∀ (i : Nat) (c : Cell), (path lay.excl w)[i]? = some c →
      Bitmap.cell (pack lay ilv w) w c =
        (decide (i < 8 * ilv.length) && (ilv.getD (i / 8) 0).getLsbD (7 - i % 8))) ∧
    (∀ x y, x < w → y < w → isReserved lay.excl (x, y) = true →
      Bitmap.cell (pack lay ilv w) w (x, y) = Bitmap.cell lay.mod w (x, y))

/-- The path is long enough (R151, R153): on the layout of version v it visits every non-reserved cell of the symbol exactly once and no other,
and it has the 8·T cells of the stream and r(v) remainder cells more, at every level. -/
def Obligations.PathHoldsTheWholeStream : Prop :=
  ∀ lvl v, 1 ≤ lvl → lvl ≤ 4 → 1 ≤ v → v ≤ 40 →
    let w := symbolWidth v
    let p := path (layout v).excl w
    p.Nodup ∧ (∀ x y, (x, y) ∈ p ↔ x < w ∧ y < w ∧ isReserved (layout v).excl (x, y) = false) ∧
    p.length = 8 * totalCodewords (lookupCfg lvl v) + remainderCells v

/-! ### Stage S7: mask and finish -/

/-- The eight mask predicates, written out (R154). Applying a mask (R156): every cell inside the symbol is inverted exactly where the predicate holds and the cell is not reserved, so
applying the same mask twice gives every module back. -/
def Obligations.MaskInvertsExactlyItsFreeCells : Prop :=
  (∀ x y : Nat,
    maskPred 0 (x, y) = decide ((x + y) % 2 = 0) ∧ maskPred 1 (x, y) = decide (y % 2 = 0) ∧
    maskPred 2 (x, y) = decide (x % 3 = 0) ∧ maskPred 3 (x, y) = decide ((x + y) % 3 = 0) ∧
    maskPred 4 (x, y) = decide ((x / 3 + y / 2) % 2 = 0) ∧
    maskPred 5 (x, y) = decide (x * y % 2 + x * y % 3 = 0) ∧
    maskPred 6 (x, y) = decide ((x * y % 2 + x * y % 3) % 2 = 0) ∧
    maskPred 7 (x, y) = decide (((x + y) % 2 + x * y % 3) % 2 = 0)) ∧
  ∀ (excl p : Bitmap) (w k x y : Nat), x < w → y < w →
    Bitmap.cell (applyMask excl w p k) w (x, y) =
      (Bitmap.cell p w (x, y) ^^ (maskPred k (x, y) && !isReserved excl (x, y))) ∧
    Bitmap.cell (applyMask excl w (applyMask excl w p k) k) w (x, y) = Bitmap.cell p w (x, y)

/-- The search with INITIAL_BEST = NONE (R164): the mask it keeps has a minimal score, and it is the smallest index that has. -/
def Obligations.SearchKeepsTheEarliestMinimum : Prop :=
  ∀ scores : List Nat, scores.length = 8 →
    bestMask none scores < 8 ∧
    (∀ j, j < 8 → scores.getD (bestMask none scores) 0 ≤ scores.getD j 0) ∧
    (∀ j, j < bestMask none scores → scores.getD (bestMask none scores) 0 < scores.getD j 0)

/-- The badness score, term by term, for all weights. The runs of a line (R159) are lengths that alternate in colour from light on, none
but the first empty, that spell the line and add up to its length. The score (R163) is N2 for every 2×2 window of one colour (R158);
for every row and column N1 + r − 5 for every run r of 5 or more (R160) and N3 for every finder-like dark run (R161); and N4 times the
imbalance count, which is ⌈10·|bw| / w²⌉ − 1 for bw ≠ 0 and 0 for bw = 0 (R162). With the default weights no score of a symbol reaches
2^21, so SCORE[k] never wraps (R041, R163). -/
def Obligations.ScoreIsTheSumOfItsTermsAndNeverWraps : Prop :=
  (∀ line : List Bool,
    (runs line).sum = line.length ∧ (∀ i n, 1 ≤ i → (runs line)[i]? = some n → 1 ≤ n) ∧
    ((runs line).zipIdx.flatMap fun r => List.replicate r.1 (decide (r.2 % 2 = 1))) = line) ∧
  (∀ (p : Config.Params) (q : Bitmap) (w : Nat),
    let cell := fun x y => Bitmap.cell q w (x, y)
    let windows := ((List.range (w - 1)).map fun y => ((List.range (w - 1)).filter fun x =>
      cell x y = cell (x + 1) y ∧ cell x y = cell x (y + 1) ∧ cell x y = cell (x + 1) (y + 1)).length).sum
    let runTerm := fun r : List Nat => ((r.filter (5 ≤ ·)).map (p.n1 + · - 5)).sum
    let finderTerm := fun r : List Nat => p.n3 * ((List.range r.length).filter fun i =>
      i % 2 = 1 ∧ 3 ≤ i ∧ i + 2 ≤ r.length - 1 ∧
      r.getD (i - 2) 0 = r.getD (i - 1) 0 ∧ r.getD (i + 1) 0 = r.getD (i - 1) 0 ∧ r.getD (i + 2) 0 = r.getD (i - 1) 0 ∧
      r.getD i 0 = 3 * r.getD (i - 1) 0 ∧
      (r.getD (i - 3) 0 = 0 ∨ r.length - 1 < i + 3 ∨ 4 * r.getD i 0 ≤ 3 * r.getD (i - 3) 0 ∨
        4 * r.getD i 0 ≤ 3 * r.getD (i + 3) 0)).length
    let lineTerm := fun line => runTerm (runs line) + finderTerm (runs line)
    let dark := ((List.range w).map fun y => ((List.range w).filter fun x => cell x y = true).length).sum
    let bw := ((dark : Int) - ((w * w : Nat) - dark)).natAbs
    let count := if bw = 0 then 0 else (10 * bw + w * w - 1) / (w * w) - 1
    score p q w = p.n2 * windows +
      ((List.range w).map fun y => lineTerm ((List.range w).map fun x => cell x y)).sum +
      ((List.range w).map fun x => lineTerm ((List.range w).map fun y => cell x y)).sum + p.n4 * count) ∧
  (∀ (q : Bitmap) (w : Nat), 21 ≤ w → w ≤ 177 → score Config.defaultParams q w < 2 ^ 21)

/-- The format and version words (R165, R167): FORMAT XOR 0x5412 is a multiple of the BCH generator 0x537 whose top five bits are the level
bits and the mask, and VINFO[v] is a multiple of 0x1F25 whose top six bits are v. -/
def Obligations.FormatAndVersionWordsAreCodewords : Prop :=
  (∀ lvl k, 1 ≤ lvl → lvl ≤ 4 → k < 8 →
    ((Rom.format (k + (lvl - 1) * 8)).toNat ^^^ 0x5412) / 2 ^ 10 = levelBits lvl * 8 + k ∧
    gf2Mod 0x537 10 5 ((Rom.format (k + (lvl - 1) * 8)).toNat ^^^ 0x5412) = 0) ∧
  (∀ v, 7 ≤ v → v ≤ 40 → (Rom.vinfo v).toNat / 2 ^ 12 = v ∧ gf2Mod 0x1F25 12 6 (Rom.vinfo v).toNat = 0)

/-- MATRIX after every GENERATE that succeeds (R166, R167, R168, R170, R171): both format copies hold FMTWORD bit by bit, for v ≥ 7 both
version blocks hold VINFO[v], every other reserved cell (finders, separators, alignment, timing, dark module) is as the layout drew it,
every free cell holds its packed module inverted where the predicate of MASKSEL holds, the dark module (8, w − 8) is dark, and every
bit of MATRIX from w² on is 0. -/
def Obligations.MatrixHoldsTheSymbol : Prop :=
  ∀ (s t : State) (v w : Nat), exec .generate s = .next t →
    levelLegal s.ctrl.level.toNat = true → (s.ctrl.movrEn = true → s.ctrl.movr.toNat ≤ 7) →
    ((selectVersion s.len.toNat s.ctrl.level.toNat).fits = true ∨ s.ctrl.strict = false) →
    v = t.res.version.toNat → w = symbolWidth v →
    let c := lookupCfg s.ctrl.level.toNat v
    let cw := encodeCodewords (s.inbufBytes t.res.effLen.toNat) v (dataCodewords c)
    let packed := pack (layout v) (interleave cw (rsBlocks cw c) c) w
    let holds := fun (x y : Nat) (b : Bool) => t.matrixModule? (x + y * w) = some b
    (∀ k, k ≤ 5 → holds 8 k (t.res.fmtWord.getLsbD k)) ∧ holds 8 7 (t.res.fmtWord.getLsbD 6) ∧
    holds 8 8 (t.res.fmtWord.getLsbD 7) ∧ holds 7 8 (t.res.fmtWord.getLsbD 8) ∧
    (∀ k, 9 ≤ k → k ≤ 14 → holds (14 - k) 8 (t.res.fmtWord.getLsbD k)) ∧
    (∀ k, k ≤ 7 → holds (w - 1 - k) 8 (t.res.fmtWord.getLsbD k)) ∧
    (∀ k, 8 ≤ k → k ≤ 14 → holds 8 (w - 15 + k) (t.res.fmtWord.getLsbD k)) ∧
    (7 ≤ v → ∀ j, j < 18 →
      holds (j / 3) (w - 11 + j % 3) ((Rom.vinfo v).getLsbD j) ∧ holds (w - 11 + j % 3) (j / 3) ((Rom.vinfo v).getLsbD j)) ∧
    (∀ x y, x < w → y < w → isReserved (layout v).excl (x, y) = true →
      (∀ k, k < 15 → (x, y) ∉ formatCopies w k) → (7 ≤ v → (x, y) ∉ versionCells w) →
      holds x y (Bitmap.cell (layout v).mod w (x, y))) ∧
    (∀ x y, x < w → y < w → isReserved (layout v).excl (x, y) = false →
      holds x y (Bitmap.cell packed w (x, y) ^^ maskPred t.res.maskSel.toNat (x, y))) ∧
    holds 8 (w - 8) true ∧
    (∀ i, w * w ≤ i → i < 8 * 3917 → t.matrixModule? i = some false)

/-- Automatic mask selection as the host sees it (R164, R169): after a searching GENERATE with the spec's default parameters, SCORE[j] is
the badness score of the packed matrix under mask j, and MASKSEL is the smallest index whose SCORE register is minimal. -/
def Obligations.MaskselIsTheEarliestMinimalScore : Prop :=
  ∀ s t : State, s.params = Config.defaultParams → s.ctrl.movrEn = false → s.status.err = 0 →
    exec .generate s = .next t → t.status.err = 0 →
    let v := t.res.version.toNat
    let w := symbolWidth v
    let c := lookupCfg s.ctrl.level.toNat v
    let cw := encodeCodewords (s.inbufBytes t.res.effLen.toNat) v (dataCodewords c)
    let packed := pack (layout v) (interleave cw (rsBlocks cw c) c) w
    t.status.scoreValid = true ∧
    (∀ j : Fin 8, (t.res.score.get j).toNat =
      score Config.defaultParams (applyMask (layout v).excl w packed j.val) w) ∧
    (∀ j : Fin 8, (t.res.score.get t.res.maskSel.toFin).toNat ≤ (t.res.score.get j).toNat) ∧
    (∀ j : Fin 8, j.val < t.res.maskSel.toNat →
      (t.res.score.get t.res.maskSel.toFin).toNat < (t.res.score.get j).toNat)

/-! ### The block as a whole -/

/-- The result of GENERATE depends only on its inputs (R047, R109): two machines with the same parameters, LEVEL, STRICT, MOVR_EN, MOVR and
LEN, and the same written bytes INBUF[0..EFFLEN−1], EFFLEN = min(LEN, CAP(40)), report the same error or write the same results, SCORE and MATRIX, whatever else
their states hold. -/
def Obligations.GenerateDependsOnlyOnItsInputs : Prop :=
  ∀ s s' t t' : State,
    s'.params = s.params → s'.ctrl.level = s.ctrl.level → s'.ctrl.strict = s.ctrl.strict →
    s'.ctrl.movrEn = s.ctrl.movrEn → s'.ctrl.movr = s.ctrl.movr → s'.len = s.len →
    (∀ k, k < min s.len.toNat (capacityOf 40 (lookupCfg s.ctrl.level.toNat 40)) →
      ∃ b, Memory.get? s.mem (Config.inbufBase + k) = some b ∧ Memory.get? s'.mem (Config.inbufBase + k) = some b) →
    s.status.err = 0 → s'.status.err = 0 → exec .generate s = .next t → exec .generate s' = .next t' →
    t'.status.err = t.status.err ∧
    (t.status.err ≠ 0 → t'.status.errInfo = t.status.errInfo) ∧
    (t.status.err = 0 →
      t'.res = t.res ∧ t'.status.scoreValid = t.status.scoreValid ∧ t'.status.truncated = t.status.truncated ∧
      ∀ a, isMatrix a = true → Memory.get? t'.mem a = Memory.get? t.mem a)
end

