-- ==== Sys2Proof/Laws/Bitmap.lean ====
section
/-! SUPPORT. The laws of the bit arrays: what set and flip do to one entry, and what a fold of them over a list of places does. -/

namespace Sys2Proof.Machine

/-- Reading after setting (42_layout.md R117). -/
@[simp] theorem Bitmap.get_set (b : Bitmap) (i j : Nat) : Bitmap.get (Bitmap.set b i) j = (Bitmap.get b j || decide (i = j)) := by
  simp [Bitmap.get, Bitmap.set, Nat.one_shiftLeft, Nat.testBit_two_pow]

/-- Reading after inverting (47_mask_finish.md R156). -/
@[simp] theorem Bitmap.get_flip (b : Bitmap) (i j : Nat) : Bitmap.get (Bitmap.flip b i) j = (Bitmap.get b j ^^ decide (i = j)) := by
  simp [Bitmap.get, Bitmap.flip, Nat.one_shiftLeft, Nat.testBit_two_pow]

/-- The empty bit array. -/
@[simp] theorem Bitmap.get_zero (j : Nat) : Bitmap.get 0 j = false := by simp [Bitmap.get]

/-- Setting every place of a list: an entry is 1 where it was, or where some element of the list addresses it. -/
theorem Bitmap.get_foldl_set {α : Type} (f : α → Nat) (l : List α) (b : Bitmap) (j : Nat) :
    Bitmap.get (l.foldl (fun m c => Bitmap.set m (f c)) b) j = (Bitmap.get b j || l.any fun c => decide (f c = j)) := by
  induction l generalizing b with
  | nil => simp
  | cons c l ih => simp [ih, Bool.or_assoc]

/-- What `Reserve` over a list makes of EXCL (42_layout.md R118). -/
theorem reserveAll_excl (s : Scratch) (cs : List Cell) (j : Nat) :
    Bitmap.get (reserveAll s cs).excl j = (Bitmap.get s.excl j || cs.any fun c => decide (xbit c = j)) :=
  Bitmap.get_foldl_set xbit cs s.excl j

/-- `Reserve` leaves MOD alone. -/
@[simp] theorem reserveAll_mod (s : Scratch) (cs : List Cell) : (reserveAll s cs).mod = s.mod := rfl

/-- What `SetDark` over a list makes of MOD (R117). -/
theorem darkAll_mod (w : Nat) (s : Scratch) (cs : List Cell) (j : Nat) :
    Bitmap.get (darkAll w s cs).mod j = (Bitmap.get s.mod j || cs.any fun c => decide (cellIndex w c = j)) :=
  Bitmap.get_foldl_set (cellIndex w) cs s.mod j

/-- `SetDark` leaves EXCL alone. -/
@[simp] theorem darkAll_excl (w : Nat) (s : Scratch) (cs : List Cell) : (darkAll w s cs).excl = s.excl := rfl

/-- A cell is reserved by its address in EXCL, so a cell and its transpose are reserved together (R118). -/
theorem xbit_transpose (c : Cell) : xbit (transpose c) = xbit c := by
  obtain ⟨x, y⟩ := c
  show (if y > x then _ else _) = (if x > y then _ else _)
  rcases Nat.lt_trichotomy x y with h | rfl | h
  · rw [if_pos h, if_neg (by omega)]; rfl
  · rfl
  · rw [if_neg (Nat.lt_asymm h), if_pos h]; rfl

/-- A cell in the grid. -/
theorem mem_gridCells {nx ny : Nat} {c : Cell} : c ∈ gridCells nx ny ↔ c.1 < nx ∧ c.2 < ny := by
  obtain ⟨x, y⟩ := c
  simp only [gridCells, List.mem_flatMap, List.mem_map, List.mem_range, Prod.mk.injEq]
  constructor
  · rintro ⟨y', hy, x', hx, rfl, rfl⟩; exact ⟨hx, hy⟩
  · rintro ⟨hx, hy⟩; exact ⟨y, hy, x, hx, rfl, rfl⟩

/-- Two cells of a symbol with the same linear index are the same cell (00_scope.md R005). -/
theorem cellIndex_inj {w : Nat} {c d : Cell} (hc : c.1 < w) (hd : d.1 < w) (h : cellIndex w c = cellIndex w d) : c = d := by
  obtain ⟨x, y⟩ := c
  obtain ⟨x', y'⟩ := d
  simp only [cellIndex] at h hc hd
  have hx : x = x' := by
    have h1 : (x + y * w) % w = x := by rw [Nat.add_mul_mod_self_right, Nat.mod_eq_of_lt hc]
    have h2 : (x' + y' * w) % w = x' := by rw [Nat.add_mul_mod_self_right, Nat.mod_eq_of_lt hd]
    rw [← h1, ← h2, h]
  subst hx
  have hy : y * w = y' * w := by omega
  have : y = y' := Nat.eq_of_mul_eq_mul_right (by omega) hy
  simp [this]

/-- The number of bytes PackMatrix writes (47_mask_finish.md R170). -/
@[simp] theorem packMatrix_length (q : Bitmap) (w : Nat) : (packMatrix q w).length = Config.matrixBytes := by
  simp [packMatrix]

/-- Byte b of PackMatrix. -/
theorem packMatrix_getElem? (q : Bitmap) (w : Nat) {b : Nat} (h : b < Config.matrixBytes) :
    (packMatrix q w)[b]? = some (matrixByte q w b) := by
  simp [packMatrix, h]

end Sys2Proof.Machine
end

