-- ==== Sys2Proof/Laws/Memory.lean ====
section
/-! SUPPORT. The laws of the buffer memory: a read after a write gives the byte written, a write leaves every other byte alone,
and every write to storage keeps the canonical form. -/

namespace Sys2Proof.Machine

/-- Reading a list of cells put before another. -/
theorem Memory.get?_append (m n : Memory) (a : Nat) :
    Memory.get? (m ++ n) a = (Memory.get? m a).or (Memory.get? n a) := by
  induction m with
  | nil => simp [Memory.get?]
  | cons c m ih =>
    obtain ⟨k, b⟩ := c
    by_cases h : k = a <;> simp [Memory.get?, h, ih]

/-- Reading a run of bytes. -/
theorem Memory.get?_cells (b a : Nat) (bs : List Byte) :
    Memory.get? (Memory.cells b bs) a = if b ≤ a then bs[a - b]? else none := by
  induction bs generalizing b with
  | nil => simp [Memory.cells, Memory.get?]
  | cons x bs ih =>
    simp only [Memory.cells, Memory.get?]
    by_cases h : b = a
    · subst h; simp
    · by_cases h' : b ≤ a
      · have hk : a - b = (a - (b + 1)) + 1 := by omega
        have : b + 1 ≤ a := by omega
        simp [h, h', ih, hk, this]
      · have : ¬ b + 1 ≤ a := by omega
        simp [h, h', ih, this]

/-- Reading what a test on addresses keeps. -/
theorem Memory.get?_filter (p : Nat → Bool) (m : Memory) (a : Nat) :
    Memory.get? (m.filter fun c => p c.1) a = if p a then Memory.get? m a else none := by
  induction m with
  | nil => simp [Memory.get?]
  | cons c m ih =>
    obtain ⟨k, b⟩ := c
    by_cases hp : p k
    · by_cases hk : k = a
      · subst hk; simp [Memory.get?, hp]
      · simp [Memory.get?, hp, hk, ih]
    · by_cases hk : k = a
      · subst hk; simp [hp, ih]
      · simp [Memory.get?, hp, hk, ih]

/-- A read after a write: the written bytes inside the run, the old ones outside it (20_memory.md R066). -/
theorem Memory.get?_write (m : Memory) (b a : Nat) (bs : List Byte) :
    Memory.get? (Memory.write m b bs) a =
      if b ≤ a ∧ a < b + bs.length then bs[a - b]? else Memory.get? m a := by
  have h1 := Memory.get?_filter (fun k => decide (k < b)) m a
  have h2 := Memory.get?_filter (fun k => decide (b + bs.length ≤ k)) m a
  simp only [Memory.write, Memory.get?_append, Memory.get?_cells, h1, h2, decide_eq_true_eq]
  by_cases hlo : a < b
  · have : ¬ b ≤ a := by omega
    have : ¬ b + bs.length ≤ a := by omega
    simp [*]
  · by_cases hhi : a < b + bs.length
    · have hb : b ≤ a := by omega
      have : ¬ b + bs.length ≤ a := by omega
      have hx : a - b < bs.length := by omega
      simp [hlo, hb, hhi, List.getElem?_eq_getElem hx]
    · have hb : b ≤ a := by omega
      have : b + bs.length ≤ a := by omega
      have hx : bs.length ≤ a - b := by omega
      simp [hlo, hb, hhi, this, List.getElem?_eq_none hx]

/-- Inside the run a write decides the byte. -/
theorem Memory.get?_write_inside {m : Memory} {b a : Nat} {bs : List Byte} (h1 : b ≤ a) (h2 : a < b + bs.length) :
    Memory.get? (Memory.write m b bs) a = bs[a - b]? := by
  rw [Memory.get?_write, if_pos ⟨h1, h2⟩]

/-- Outside the run a write changes nothing. -/
theorem Memory.get?_write_outside {m : Memory} {b a : Nat} {bs : List Byte} (h : a < b ∨ b + bs.length ≤ a) :
    Memory.get? (Memory.write m b bs) a = Memory.get? m a := by
  rw [Memory.get?_write, if_neg (by omega)]

/-- The rising form as a pairwise order. -/
theorem Memory.rising_iff (m : Memory) : Memory.rising m = true ↔ m.Pairwise (fun c d => c.1 < d.1) := by
  induction m with
  | nil => simp [Memory.rising]
  | cons c m ih =>
    obtain ⟨a, x⟩ := c
    cases m with
    | nil => simp [Memory.rising]
    | cons d m =>
      obtain ⟨b, y⟩ := d
      simp only [Memory.rising, Bool.and_eq_true, decide_eq_true_eq, ih]
      constructor
      · rintro ⟨hab, hp⟩
        refine List.Pairwise.cons ?_ hp
        intro e he
        rcases List.mem_cons.mp he with rfl | he
        · exact hab
        · exact Nat.lt_trans hab (List.rel_of_pairwise_cons hp he)
      · intro hp
        exact ⟨(List.pairwise_cons.mp hp).1 (b, y) List.mem_cons_self, hp.of_cons⟩

/-- The addresses of a run of bytes. -/
theorem Memory.mem_cells {b : Nat} {bs : List Byte} {c : Host.Cell} (h : c ∈ Memory.cells b bs) :
    b ≤ c.1 ∧ c.1 < b + bs.length := by
  induction bs generalizing b with
  | nil => simp [Memory.cells] at h
  | cons x bs ih =>
    rcases List.mem_cons.mp h with rfl | h
    · simp
    · have := ih h; simp only [List.length_cons]; omega

/-- A run of bytes rises. -/
theorem Memory.cells_pairwise (b : Nat) (bs : List Byte) : (Memory.cells b bs).Pairwise (fun c d => c.1 < d.1) := by
  induction bs generalizing b with
  | nil => simp [Memory.cells]
  | cons x bs ih =>
    refine List.Pairwise.cons (fun c hc => ?_) (ih (b + 1))
    have := Memory.mem_cells hc
    simp only; omega

/-- A write to storage keeps the canonical form. -/
theorem Memory.wf_write {m : Memory} {b : Nat} {bs : List Byte} (hm : Memory.wf m = true)
    (hs : ∀ a, b ≤ a → a < b + bs.length → isStorage a = true) : Memory.wf (Memory.write m b bs) = true := by
  simp only [Memory.wf, Bool.and_eq_true, Memory.rising_iff, List.all_eq_true] at hm ⊢
  obtain ⟨hp, hst⟩ := hm
  constructor
  · refine List.pairwise_append.mpr ⟨List.pairwise_append.mpr ⟨hp.filter _, Memory.cells_pairwise b bs, ?_⟩, hp.filter _, ?_⟩
    · intro c hc d hd
      have h1 := (List.mem_filter.mp hc).2
      have h2 := Memory.mem_cells hd
      simp only [decide_eq_true_eq] at h1; omega
    · intro c hc d hd
      have h2 := (List.mem_filter.mp hd).2
      simp only [decide_eq_true_eq] at h2
      rcases List.mem_append.mp hc with hc | hc
      · have h1 := (List.mem_filter.mp hc).2
        simp only [decide_eq_true_eq] at h1; omega
      · have h1 := Memory.mem_cells hc; omega
  · intro c hc
    rcases List.mem_append.mp hc with hc | hc
    · rcases List.mem_append.mp hc with hc | hc
      · exact hst c (List.mem_filter.mp hc).1
      · have := Memory.mem_cells hc; exact hs c.1 this.1 this.2
    · exact hst c (List.mem_filter.mp hc).1

/-- The empty memory is in canonical form. -/
theorem Memory.wf_nil : Memory.wf [] = true := rfl

end Sys2Proof.Machine
end

