-- ==== Sys2Proof/Laws/State.lean ====
section
/-! SUPPORT. One lemma per field of State and update, each true by rfl: what the update makes of the field. No later proof
unfolds a record update. -/

namespace Sys2Proof.Machine

/-! `State.accept` (R100) -/

@[simp] theorem State.accept_ctrl (s : State) (c : Word) : (s.accept c).ctrl = s.ctrl := rfl
@[simp] theorem State.accept_status (s : State) (c : Word) : (s.accept c).status = { s.status with done := false, err := 0, errInfo := 0 } := rfl
@[simp] theorem State.accept_len (s : State) (c : Word) : (s.accept c).len = s.len := rfl
@[simp] theorem State.accept_vsel (s : State) (c : Word) : (s.accept c).vsel = s.vsel := rfl
@[simp] theorem State.accept_eccLen (s : State) (c : Word) : (s.accept c).eccLen = s.eccLen := rfl
@[simp] theorem State.accept_res (s : State) (c : Word) : (s.accept c).res = s.res := rfl
@[simp] theorem State.accept_pend (s : State) (c : Word) : (s.accept c).pend = some c := rfl
@[simp] theorem State.accept_mem (s : State) (c : Word) : (s.accept c).mem = s.mem := rfl
@[simp] theorem State.accept_host (s : State) (c : Word) : (s.accept c).host = s.host := rfl
@[simp] theorem State.accept_params (s : State) (c : Word) : (s.accept c).params = s.params := rfl
@[simp] theorem State.accept_wait (s : State) (c : Word) : (s.accept c).wait = s.nextLatency := rfl
@[simp] theorem State.accept_sched (s : State) (c : Word) : (s.accept c).sched = s.sched.tail := rfl
@[simp] theorem State.accept_resets (s : State) (c : Word) : (s.accept c).resets = s.resets := rfl
@[simp] theorem State.accept_draws (s : State) (c : Word) : (s.accept c).draws = s.draws + 1 := rfl
@[simp] theorem State.accept_resetCount (s : State) (c : Word) : (s.accept c).resetCount = s.resetCount := rfl

/-! `State.raise` (R183) -/

@[simp] theorem State.raise_ctrl (s : State) (e : EngineError) : (s.raise e).ctrl = s.ctrl := rfl
@[simp] theorem State.raise_status (s : State) (e : EngineError) : (s.raise e).status = { s.status with err := e.code, errInfo := e.info } := rfl
@[simp] theorem State.raise_len (s : State) (e : EngineError) : (s.raise e).len = s.len := rfl
@[simp] theorem State.raise_vsel (s : State) (e : EngineError) : (s.raise e).vsel = s.vsel := rfl
@[simp] theorem State.raise_eccLen (s : State) (e : EngineError) : (s.raise e).eccLen = s.eccLen := rfl
@[simp] theorem State.raise_res (s : State) (e : EngineError) : (s.raise e).res = s.res := rfl
@[simp] theorem State.raise_pend (s : State) (e : EngineError) : (s.raise e).pend = s.pend := rfl
@[simp] theorem State.raise_mem (s : State) (e : EngineError) : (s.raise e).mem = s.mem := rfl
@[simp] theorem State.raise_host (s : State) (e : EngineError) : (s.raise e).host = s.host := rfl
@[simp] theorem State.raise_params (s : State) (e : EngineError) : (s.raise e).params = s.params := rfl
@[simp] theorem State.raise_wait (s : State) (e : EngineError) : (s.raise e).wait = s.wait := rfl
@[simp] theorem State.raise_sched (s : State) (e : EngineError) : (s.raise e).sched = s.sched := rfl
@[simp] theorem State.raise_resets (s : State) (e : EngineError) : (s.raise e).resets = s.resets := rfl
@[simp] theorem State.raise_draws (s : State) (e : EngineError) : (s.raise e).draws = s.draws := rfl
@[simp] theorem State.raise_resetCount (s : State) (e : EngineError) : (s.raise e).resetCount = s.resetCount := rfl

/-! `State.complete` (R101) -/

@[simp] theorem State.complete_ctrl (s : State) : (s.complete).ctrl = s.ctrl := rfl
@[simp] theorem State.complete_status (s : State) : (s.complete).status = { s.status with done := true } := rfl
@[simp] theorem State.complete_len (s : State) : (s.complete).len = s.len := rfl
@[simp] theorem State.complete_vsel (s : State) : (s.complete).vsel = s.vsel := rfl
@[simp] theorem State.complete_eccLen (s : State) : (s.complete).eccLen = s.eccLen := rfl
@[simp] theorem State.complete_res (s : State) : (s.complete).res = s.res := rfl
@[simp] theorem State.complete_pend (s : State) : (s.complete).pend = none := rfl
@[simp] theorem State.complete_mem (s : State) : (s.complete).mem = s.mem := rfl
@[simp] theorem State.complete_host (s : State) : (s.complete).host = s.host := rfl
@[simp] theorem State.complete_params (s : State) : (s.complete).params = s.params := rfl
@[simp] theorem State.complete_wait (s : State) : (s.complete).wait = s.wait := rfl
@[simp] theorem State.complete_sched (s : State) : (s.complete).sched = s.sched := rfl
@[simp] theorem State.complete_resets (s : State) : (s.complete).resets = s.resets := rfl
@[simp] theorem State.complete_draws (s : State) : (s.complete).draws = s.draws := rfl
@[simp] theorem State.complete_resetCount (s : State) : (s.complete).resetCount = s.resetCount := rfl

/-! `State.afterError` (R183) -/

@[simp] theorem State.afterError_ctrl (s : State) (e : BitVec 4) (i : Byte) : (s.afterError e i).ctrl = s.ctrl := rfl
@[simp] theorem State.afterError_status (s : State) (e : BitVec 4) (i : Byte) :
    (s.afterError e i).status =
      { s.status with done := true, err := e, errInfo := i } := rfl
@[simp] theorem State.afterError_len (s : State) (e : BitVec 4) (i : Byte) : (s.afterError e i).len = s.len := rfl
@[simp] theorem State.afterError_vsel (s : State) (e : BitVec 4) (i : Byte) : (s.afterError e i).vsel = s.vsel := rfl
@[simp] theorem State.afterError_eccLen (s : State) (e : BitVec 4) (i : Byte) : (s.afterError e i).eccLen = s.eccLen := rfl
@[simp] theorem State.afterError_res (s : State) (e : BitVec 4) (i : Byte) : (s.afterError e i).res = s.res := rfl
@[simp] theorem State.afterError_pend (s : State) (e : BitVec 4) (i : Byte) : (s.afterError e i).pend = none := rfl
@[simp] theorem State.afterError_mem (s : State) (e : BitVec 4) (i : Byte) : (s.afterError e i).mem = s.mem := rfl
@[simp] theorem State.afterError_host (s : State) (e : BitVec 4) (i : Byte) : (s.afterError e i).host = s.host := rfl
@[simp] theorem State.afterError_params (s : State) (e : BitVec 4) (i : Byte) : (s.afterError e i).params = s.params := rfl
@[simp] theorem State.afterError_wait (s : State) (e : BitVec 4) (i : Byte) : (s.afterError e i).wait = s.wait := rfl
@[simp] theorem State.afterError_sched (s : State) (e : BitVec 4) (i : Byte) : (s.afterError e i).sched = s.sched := rfl
@[simp] theorem State.afterError_resets (s : State) (e : BitVec 4) (i : Byte) : (s.afterError e i).resets = s.resets := rfl
@[simp] theorem State.afterError_draws (s : State) (e : BitVec 4) (i : Byte) : (s.afterError e i).draws = s.draws := rfl
@[simp] theorem State.afterError_resetCount (s : State) (e : BitVec 4) (i : Byte) : (s.afterError e i).resetCount = s.resetCount := rfl

/-! `State.dropWrite` (R205) -/

@[simp] theorem State.dropWrite_ctrl (s : State) : (s.dropWrite).ctrl = s.ctrl := rfl
@[simp] theorem State.dropWrite_status (s : State) : (s.dropWrite).status = { s.status with overrun := true } := rfl
@[simp] theorem State.dropWrite_len (s : State) : (s.dropWrite).len = s.len := rfl
@[simp] theorem State.dropWrite_vsel (s : State) : (s.dropWrite).vsel = s.vsel := rfl
@[simp] theorem State.dropWrite_eccLen (s : State) : (s.dropWrite).eccLen = s.eccLen := rfl
@[simp] theorem State.dropWrite_res (s : State) : (s.dropWrite).res = s.res := rfl
@[simp] theorem State.dropWrite_pend (s : State) : (s.dropWrite).pend = s.pend := rfl
@[simp] theorem State.dropWrite_mem (s : State) : (s.dropWrite).mem = s.mem := rfl
@[simp] theorem State.dropWrite_host (s : State) : (s.dropWrite).host = s.host := rfl
@[simp] theorem State.dropWrite_params (s : State) : (s.dropWrite).params = s.params := rfl
@[simp] theorem State.dropWrite_wait (s : State) : (s.dropWrite).wait = s.wait := rfl
@[simp] theorem State.dropWrite_sched (s : State) : (s.dropWrite).sched = s.sched := rfl
@[simp] theorem State.dropWrite_resets (s : State) : (s.dropWrite).resets = s.resets := rfl
@[simp] theorem State.dropWrite_draws (s : State) : (s.dropWrite).draws = s.draws := rfl
@[simp] theorem State.dropWrite_resetCount (s : State) : (s.dropWrite).resetCount = s.resetCount := rfl

/-! `State.writeStatus` (R037) -/

@[simp] theorem State.writeStatus_ctrl (s : State) (v : Word) : (s.writeStatus v).ctrl = s.ctrl := rfl
@[simp] theorem State.writeStatus_status (s : State) (v : Word) :
    (s.writeStatus v).status =
      { s.status with done := s.status.done && !v.getLsbD 1, overrun := s.status.overrun && !v.getLsbD 2 } := rfl
@[simp] theorem State.writeStatus_len (s : State) (v : Word) : (s.writeStatus v).len = s.len := rfl
@[simp] theorem State.writeStatus_vsel (s : State) (v : Word) : (s.writeStatus v).vsel = s.vsel := rfl
@[simp] theorem State.writeStatus_eccLen (s : State) (v : Word) : (s.writeStatus v).eccLen = s.eccLen := rfl
@[simp] theorem State.writeStatus_res (s : State) (v : Word) : (s.writeStatus v).res = s.res := rfl
@[simp] theorem State.writeStatus_pend (s : State) (v : Word) : (s.writeStatus v).pend = s.pend := rfl
@[simp] theorem State.writeStatus_mem (s : State) (v : Word) : (s.writeStatus v).mem = s.mem := rfl
@[simp] theorem State.writeStatus_host (s : State) (v : Word) : (s.writeStatus v).host = s.host := rfl
@[simp] theorem State.writeStatus_params (s : State) (v : Word) : (s.writeStatus v).params = s.params := rfl
@[simp] theorem State.writeStatus_wait (s : State) (v : Word) : (s.writeStatus v).wait = s.wait := rfl
@[simp] theorem State.writeStatus_sched (s : State) (v : Word) : (s.writeStatus v).sched = s.sched := rfl
@[simp] theorem State.writeStatus_resets (s : State) (v : Word) : (s.writeStatus v).resets = s.resets := rfl
@[simp] theorem State.writeStatus_draws (s : State) (v : Word) : (s.writeStatus v).draws = s.draws := rfl
@[simp] theorem State.writeStatus_resetCount (s : State) (v : Word) : (s.writeStatus v).resetCount = s.resetCount := rfl

/-! `State.drawn` (log entry 4) -/

@[simp] theorem State.drawn_ctrl (s : State) : (s.drawn).ctrl = s.ctrl := rfl
@[simp] theorem State.drawn_status (s : State) : (s.drawn).status = s.status := rfl
@[simp] theorem State.drawn_len (s : State) : (s.drawn).len = s.len := rfl
@[simp] theorem State.drawn_vsel (s : State) : (s.drawn).vsel = s.vsel := rfl
@[simp] theorem State.drawn_eccLen (s : State) : (s.drawn).eccLen = s.eccLen := rfl
@[simp] theorem State.drawn_res (s : State) : (s.drawn).res = s.res := rfl
@[simp] theorem State.drawn_pend (s : State) : (s.drawn).pend = s.pend := rfl
@[simp] theorem State.drawn_mem (s : State) : (s.drawn).mem = s.mem := rfl
@[simp] theorem State.drawn_host (s : State) : (s.drawn).host = s.host := rfl
@[simp] theorem State.drawn_params (s : State) : (s.drawn).params = s.params := rfl
@[simp] theorem State.drawn_wait (s : State) : (s.drawn).wait = s.wait := rfl
@[simp] theorem State.drawn_sched (s : State) : (s.drawn).sched = s.sched := rfl
@[simp] theorem State.drawn_resets (s : State) : (s.drawn).resets = s.resets := rfl
@[simp] theorem State.drawn_draws (s : State) : (s.drawn).draws = s.draws + 1 := rfl
@[simp] theorem State.drawn_resetCount (s : State) : (s.drawn).resetCount = s.resetCount := rfl

/-! `State.platformReset` (R200) -/

@[simp] theorem State.platformReset_ctrl (s : State) : (s.platformReset).ctrl = Ctrl.zero := rfl
@[simp] theorem State.platformReset_status (s : State) : (s.platformReset).status = Status.zero := rfl
@[simp] theorem State.platformReset_len (s : State) : (s.platformReset).len = 0 := rfl
@[simp] theorem State.platformReset_vsel (s : State) : (s.platformReset).vsel = 0 := rfl
@[simp] theorem State.platformReset_eccLen (s : State) : (s.platformReset).eccLen = 0 := rfl
@[simp] theorem State.platformReset_res (s : State) : (s.platformReset).res = Results.zero := rfl
@[simp] theorem State.platformReset_pend (s : State) : (s.platformReset).pend = none := rfl
@[simp] theorem State.platformReset_mem (s : State) : (s.platformReset).mem = [] := rfl
@[simp] theorem State.platformReset_host (s : State) : (s.platformReset).host = s.host := rfl
@[simp] theorem State.platformReset_params (s : State) : (s.platformReset).params = s.params := rfl
@[simp] theorem State.platformReset_wait (s : State) : (s.platformReset).wait = s.wait := rfl
@[simp] theorem State.platformReset_sched (s : State) : (s.platformReset).sched = s.sched := rfl
@[simp] theorem State.platformReset_resets (s : State) : (s.platformReset).resets = s.resets := rfl
@[simp] theorem State.platformReset_draws (s : State) : (s.platformReset).draws = s.draws := rfl
@[simp] theorem State.platformReset_resetCount (s : State) : (s.platformReset).resetCount = s.resetCount + 1 := rfl

/-! `State.writeSymbol` (R102) -/

@[simp] theorem State.writeSymbol_ctrl (s : State) (sel : Selection) (n : Nat) (fin : Finished) : (s.writeSymbol sel n fin).ctrl = s.ctrl := rfl
@[simp] theorem State.writeSymbol_status (s : State) (sel : Selection) (n : Nat) (fin : Finished) :
    (s.writeSymbol sel n fin).status =
      { s.status with scoreValid := s.maskOverride.isNone, truncated := decide (n < s.inputLen) } := rfl
@[simp] theorem State.writeSymbol_len (s : State) (sel : Selection) (n : Nat) (fin : Finished) : (s.writeSymbol sel n fin).len = s.len := rfl
@[simp] theorem State.writeSymbol_vsel (s : State) (sel : Selection) (n : Nat) (fin : Finished) : (s.writeSymbol sel n fin).vsel = s.vsel := rfl
@[simp] theorem State.writeSymbol_eccLen (s : State) (sel : Selection) (n : Nat) (fin : Finished) :
    (s.writeSymbol sel n fin).eccLen =
      s.eccLen := rfl
@[simp] theorem State.writeSymbol_res (s : State) (sel : Selection) (n : Nat) (fin : Finished) :
    (s.writeSymbol sel n fin).res =
      { s.res.withSymbol sel.v sel.cfg with effLen := BitVec.ofNat 16 n, maskSel := BitVec.ofNat 3 fin.mask, fmtWord := fin.fmt, verWord := fin.ver, score := scoreRegs fin.scores } := rfl
@[simp] theorem State.writeSymbol_pend (s : State) (sel : Selection) (n : Nat) (fin : Finished) : (s.writeSymbol sel n fin).pend = s.pend := rfl
@[simp] theorem State.writeSymbol_mem (s : State) (sel : Selection) (n : Nat) (fin : Finished) :
    (s.writeSymbol sel n fin).mem =
      Memory.write s.mem Config.matrixBase (packMatrix fin.mod (symbolWidth sel.v)) := rfl
@[simp] theorem State.writeSymbol_host (s : State) (sel : Selection) (n : Nat) (fin : Finished) : (s.writeSymbol sel n fin).host = s.host := rfl
@[simp] theorem State.writeSymbol_params (s : State) (sel : Selection) (n : Nat) (fin : Finished) :
    (s.writeSymbol sel n fin).params =
      s.params := rfl
@[simp] theorem State.writeSymbol_wait (s : State) (sel : Selection) (n : Nat) (fin : Finished) : (s.writeSymbol sel n fin).wait = s.wait := rfl
@[simp] theorem State.writeSymbol_sched (s : State) (sel : Selection) (n : Nat) (fin : Finished) : (s.writeSymbol sel n fin).sched = s.sched := rfl
@[simp] theorem State.writeSymbol_resets (s : State) (sel : Selection) (n : Nat) (fin : Finished) :
    (s.writeSymbol sel n fin).resets =
      s.resets := rfl
@[simp] theorem State.writeSymbol_draws (s : State) (sel : Selection) (n : Nat) (fin : Finished) : (s.writeSymbol sel n fin).draws = s.draws := rfl
@[simp] theorem State.writeSymbol_resetCount (s : State) (sel : Selection) (n : Nat) (fin : Finished) :
    (s.writeSymbol sel n fin).resetCount =
      s.resetCount := rfl

/-! `State.writeLookup` (R103) -/

@[simp] theorem State.writeLookup_ctrl (s : State) (v : Nat) (c : BlockCfg) : (s.writeLookup v c).ctrl = s.ctrl := rfl
@[simp] theorem State.writeLookup_status (s : State) (v : Nat) (c : BlockCfg) : (s.writeLookup v c).status = s.status := rfl
@[simp] theorem State.writeLookup_len (s : State) (v : Nat) (c : BlockCfg) : (s.writeLookup v c).len = s.len := rfl
@[simp] theorem State.writeLookup_vsel (s : State) (v : Nat) (c : BlockCfg) : (s.writeLookup v c).vsel = s.vsel := rfl
@[simp] theorem State.writeLookup_eccLen (s : State) (v : Nat) (c : BlockCfg) : (s.writeLookup v c).eccLen = s.eccLen := rfl
@[simp] theorem State.writeLookup_res (s : State) (v : Nat) (c : BlockCfg) : (s.writeLookup v c).res = s.res.withSymbol v c := rfl
@[simp] theorem State.writeLookup_pend (s : State) (v : Nat) (c : BlockCfg) : (s.writeLookup v c).pend = s.pend := rfl
@[simp] theorem State.writeLookup_mem (s : State) (v : Nat) (c : BlockCfg) : (s.writeLookup v c).mem = s.mem := rfl
@[simp] theorem State.writeLookup_host (s : State) (v : Nat) (c : BlockCfg) : (s.writeLookup v c).host = s.host := rfl
@[simp] theorem State.writeLookup_params (s : State) (v : Nat) (c : BlockCfg) : (s.writeLookup v c).params = s.params := rfl
@[simp] theorem State.writeLookup_wait (s : State) (v : Nat) (c : BlockCfg) : (s.writeLookup v c).wait = s.wait := rfl
@[simp] theorem State.writeLookup_sched (s : State) (v : Nat) (c : BlockCfg) : (s.writeLookup v c).sched = s.sched := rfl
@[simp] theorem State.writeLookup_resets (s : State) (v : Nat) (c : BlockCfg) : (s.writeLookup v c).resets = s.resets := rfl
@[simp] theorem State.writeLookup_draws (s : State) (v : Nat) (c : BlockCfg) : (s.writeLookup v c).draws = s.draws := rfl
@[simp] theorem State.writeLookup_resetCount (s : State) (v : Nat) (c : BlockCfg) : (s.writeLookup v c).resetCount = s.resetCount := rfl

/-! `State.writeSelection` (R104) -/

@[simp] theorem State.writeSelection_ctrl (s : State) (sel : Selection) : (s.writeSelection sel).ctrl = s.ctrl := rfl
@[simp] theorem State.writeSelection_status (s : State) (sel : Selection) :
    (s.writeSelection sel).status =
      { s.status with truncated := decide (s.inputLen > capacityOf sel.v sel.cfg) } := rfl
@[simp] theorem State.writeSelection_len (s : State) (sel : Selection) : (s.writeSelection sel).len = s.len := rfl
@[simp] theorem State.writeSelection_vsel (s : State) (sel : Selection) : (s.writeSelection sel).vsel = s.vsel := rfl
@[simp] theorem State.writeSelection_eccLen (s : State) (sel : Selection) : (s.writeSelection sel).eccLen = s.eccLen := rfl
@[simp] theorem State.writeSelection_res (s : State) (sel : Selection) :
    (s.writeSelection sel).res =
      { s.res.withSymbol sel.v sel.cfg with effLen := BitVec.ofNat 16 (min s.inputLen (capacityOf sel.v sel.cfg)) } := rfl
@[simp] theorem State.writeSelection_pend (s : State) (sel : Selection) : (s.writeSelection sel).pend = s.pend := rfl
@[simp] theorem State.writeSelection_mem (s : State) (sel : Selection) : (s.writeSelection sel).mem = s.mem := rfl
@[simp] theorem State.writeSelection_host (s : State) (sel : Selection) : (s.writeSelection sel).host = s.host := rfl
@[simp] theorem State.writeSelection_params (s : State) (sel : Selection) : (s.writeSelection sel).params = s.params := rfl
@[simp] theorem State.writeSelection_wait (s : State) (sel : Selection) : (s.writeSelection sel).wait = s.wait := rfl
@[simp] theorem State.writeSelection_sched (s : State) (sel : Selection) : (s.writeSelection sel).sched = s.sched := rfl
@[simp] theorem State.writeSelection_resets (s : State) (sel : Selection) : (s.writeSelection sel).resets = s.resets := rfl
@[simp] theorem State.writeSelection_draws (s : State) (sel : Selection) : (s.writeSelection sel).draws = s.draws := rfl
@[simp] theorem State.writeSelection_resetCount (s : State) (sel : Selection) : (s.writeSelection sel).resetCount = s.resetCount := rfl

/-! `State.writeRsout` (R105) -/

@[simp] theorem State.writeRsout_ctrl (s : State) (r : List Byte) (e : Nat) : (s.writeRsout r e).ctrl = s.ctrl := rfl
@[simp] theorem State.writeRsout_status (s : State) (r : List Byte) (e : Nat) : (s.writeRsout r e).status = s.status := rfl
@[simp] theorem State.writeRsout_len (s : State) (r : List Byte) (e : Nat) : (s.writeRsout r e).len = s.len := rfl
@[simp] theorem State.writeRsout_vsel (s : State) (r : List Byte) (e : Nat) : (s.writeRsout r e).vsel = s.vsel := rfl
@[simp] theorem State.writeRsout_eccLen (s : State) (r : List Byte) (e : Nat) : (s.writeRsout r e).eccLen = s.eccLen := rfl
@[simp] theorem State.writeRsout_res (s : State) (r : List Byte) (e : Nat) : (s.writeRsout r e).res = s.res := rfl
@[simp] theorem State.writeRsout_pend (s : State) (r : List Byte) (e : Nat) : (s.writeRsout r e).pend = s.pend := rfl
@[simp] theorem State.writeRsout_mem (s : State) (r : List Byte) (e : Nat) :
    (s.writeRsout r e).mem =
      Memory.write s.mem Config.rsoutBase (rsoutBytes r e) := rfl
@[simp] theorem State.writeRsout_host (s : State) (r : List Byte) (e : Nat) : (s.writeRsout r e).host = s.host := rfl
@[simp] theorem State.writeRsout_params (s : State) (r : List Byte) (e : Nat) : (s.writeRsout r e).params = s.params := rfl
@[simp] theorem State.writeRsout_wait (s : State) (r : List Byte) (e : Nat) : (s.writeRsout r e).wait = s.wait := rfl
@[simp] theorem State.writeRsout_sched (s : State) (r : List Byte) (e : Nat) : (s.writeRsout r e).sched = s.sched := rfl
@[simp] theorem State.writeRsout_resets (s : State) (r : List Byte) (e : Nat) : (s.writeRsout r e).resets = s.resets := rfl
@[simp] theorem State.writeRsout_draws (s : State) (r : List Byte) (e : Nat) : (s.writeRsout r e).draws = s.draws := rfl
@[simp] theorem State.writeRsout_resetCount (s : State) (r : List Byte) (e : Nat) : (s.writeRsout r e).resetCount = s.resetCount := rfl

/-! `State.withHost` (R092) -/

@[simp] theorem State.withHost_ctrl (s : State) (h : HostAgent) : (s.withHost h).ctrl = s.ctrl := rfl
@[simp] theorem State.withHost_status (s : State) (h : HostAgent) : (s.withHost h).status = s.status := rfl
@[simp] theorem State.withHost_len (s : State) (h : HostAgent) : (s.withHost h).len = s.len := rfl
@[simp] theorem State.withHost_vsel (s : State) (h : HostAgent) : (s.withHost h).vsel = s.vsel := rfl
@[simp] theorem State.withHost_eccLen (s : State) (h : HostAgent) : (s.withHost h).eccLen = s.eccLen := rfl
@[simp] theorem State.withHost_res (s : State) (h : HostAgent) : (s.withHost h).res = s.res := rfl
@[simp] theorem State.withHost_pend (s : State) (h : HostAgent) : (s.withHost h).pend = s.pend := rfl
@[simp] theorem State.withHost_mem (s : State) (h : HostAgent) : (s.withHost h).mem = s.mem := rfl
@[simp] theorem State.withHost_host (s : State) (h : HostAgent) : (s.withHost h).host = h := rfl
@[simp] theorem State.withHost_params (s : State) (h : HostAgent) : (s.withHost h).params = s.params := rfl
@[simp] theorem State.withHost_wait (s : State) (h : HostAgent) : (s.withHost h).wait = s.wait := rfl
@[simp] theorem State.withHost_sched (s : State) (h : HostAgent) : (s.withHost h).sched = s.sched := rfl
@[simp] theorem State.withHost_resets (s : State) (h : HostAgent) : (s.withHost h).resets = s.resets := rfl
@[simp] theorem State.withHost_draws (s : State) (h : HostAgent) : (s.withHost h).draws = s.draws := rfl
@[simp] theorem State.withHost_resetCount (s : State) (h : HostAgent) : (s.withHost h).resetCount = s.resetCount := rfl

/-! `State.tick` (R210) -/

@[simp] theorem State.tick_ctrl (s : State) : (s.tick).ctrl = s.ctrl := rfl
@[simp] theorem State.tick_status (s : State) : (s.tick).status = s.status := rfl
@[simp] theorem State.tick_len (s : State) : (s.tick).len = s.len := rfl
@[simp] theorem State.tick_vsel (s : State) : (s.tick).vsel = s.vsel := rfl
@[simp] theorem State.tick_eccLen (s : State) : (s.tick).eccLen = s.eccLen := rfl
@[simp] theorem State.tick_res (s : State) : (s.tick).res = s.res := rfl
@[simp] theorem State.tick_pend (s : State) : (s.tick).pend = s.pend := rfl
@[simp] theorem State.tick_mem (s : State) : (s.tick).mem = s.mem := rfl
@[simp] theorem State.tick_host (s : State) : (s.tick).host = s.host := rfl
@[simp] theorem State.tick_params (s : State) : (s.tick).params = s.params := rfl
@[simp] theorem State.tick_wait (s : State) : (s.tick).wait = s.wait - 1 := rfl
@[simp] theorem State.tick_sched (s : State) : (s.tick).sched = s.sched := rfl
@[simp] theorem State.tick_resets (s : State) : (s.tick).resets = tickResets s.resets := rfl
@[simp] theorem State.tick_draws (s : State) : (s.tick).draws = s.draws := rfl
@[simp] theorem State.tick_resetCount (s : State) : (s.tick).resetCount = s.resetCount := rfl

/-! `State.withCommand` (log entry 1) -/

@[simp] theorem State.withCommand_ctrl (s : State) (w : Word) : (s.withCommand w).ctrl = s.ctrl := rfl
@[simp] theorem State.withCommand_status (s : State) (w : Word) : (s.withCommand w).status = s.status := rfl
@[simp] theorem State.withCommand_len (s : State) (w : Word) : (s.withCommand w).len = s.len := rfl
@[simp] theorem State.withCommand_vsel (s : State) (w : Word) : (s.withCommand w).vsel = s.vsel := rfl
@[simp] theorem State.withCommand_eccLen (s : State) (w : Word) : (s.withCommand w).eccLen = s.eccLen := rfl
@[simp] theorem State.withCommand_res (s : State) (w : Word) : (s.withCommand w).res = s.res := rfl
@[simp] theorem State.withCommand_pend (s : State) (w : Word) : (s.withCommand w).pend = some w := rfl
@[simp] theorem State.withCommand_mem (s : State) (w : Word) : (s.withCommand w).mem = s.mem := rfl
@[simp] theorem State.withCommand_host (s : State) (w : Word) : (s.withCommand w).host = s.host := rfl
@[simp] theorem State.withCommand_params (s : State) (w : Word) : (s.withCommand w).params = s.params := rfl
@[simp] theorem State.withCommand_wait (s : State) (w : Word) : (s.withCommand w).wait = 0 := rfl
@[simp] theorem State.withCommand_sched (s : State) (w : Word) : (s.withCommand w).sched = s.sched := rfl
@[simp] theorem State.withCommand_resets (s : State) (w : Word) : (s.withCommand w).resets = s.resets := rfl
@[simp] theorem State.withCommand_draws (s : State) (w : Word) : (s.withCommand w).draws = s.draws := rfl
@[simp] theorem State.withCommand_resetCount (s : State) (w : Word) : (s.withCommand w).resetCount = s.resetCount := rfl

/-! The views of the state that an update leaves alone -/

@[simp] theorem State.complete_busy (s : State) : s.complete.busy = false := rfl
@[simp] theorem State.accept_busy (s : State) (c : Word) : (s.accept c).busy = true := rfl
@[simp] theorem State.dropWrite_busy (s : State) : s.dropWrite.busy = s.busy := rfl
@[simp] theorem State.writeStatus_busy (s : State) (v : Word) : (s.writeStatus v).busy = s.busy := rfl
@[simp] theorem State.drawn_busy (s : State) : s.drawn.busy = s.busy := rfl
@[simp] theorem State.withHost_busy (s : State) (h : HostAgent) : (s.withHost h).busy = s.busy := rfl
@[simp] theorem State.tick_busy (s : State) : s.tick.busy = s.busy := rfl

/-- A host write while BUSY = 1 is dropped (R205). -/
theorem State.unlessBusy_of_busy {s : State} (h : s.busy = true) (t : State) : s.unlessBusy t = s.dropWrite := by
  simp [State.unlessBusy, h]

/-- While BUSY = 0 it takes effect. -/
theorem State.unlessBusy_of_idle {s : State} (h : s.busy = false) (t : State) : s.unlessBusy t = t := by
  simp [State.unlessBusy, h]

/-- An error report written over a raised error is the state after that error. -/
theorem State.raise_complete (s : State) (e : EngineError) : (s.raise e).complete = s.afterError e.code e.info := rfl

end Sys2Proof.Machine
end

