-- ==== Sys2Proof/Laws/Bus.lean ====
section
/-! SUPPORT. What each bus access of the HOST can do, said once, and what a step of each agent can do. -/

namespace Sys2Proof.Machine

/-- A written byte holds what was written (20_memory.md R066). -/
theorem State.memByte_of_written {s : State} {a : Nat} {b : Byte} (h : Memory.get? s.mem a = some b) : s.memByte a = b := by
  simp [State.memByte, h]

/-- An unwritten byte holds the draw of the last reset (70_reset_and_hazards.md R201). -/
theorem State.memByte_of_unwritten {s : State} {a : Nat} (h : Memory.get? s.mem a = none) :
    s.memByte a = Config.resetByte s.resetCount a := by
  simp [State.memByte, h]

/-- What the buffer bytes hold depends on the memory and the number of resets alone. -/
theorem State.memByte_congr {s t : State} {a : Nat} (hm : Memory.get? t.mem a = Memory.get? s.mem a)
    (hr : t.resetCount = s.resetCount) : t.memByte a = s.memByte a := by
  simp [State.memByte, hm, hr]

/-- The number of bytes an access writes. -/
@[simp] theorem leBytes_length (v : Word) (n : Nat) : (leBytes v n).length = n := by simp [leBytes]

/-- A legal access to INBUF stays inside it: an aligned access never crosses a region boundary (20_memory.md R060). -/
theorem inbuf_access {a : Addr} {n : Width} (hr : regionOf a = .inbuf) (hl : accessLegal a n = true) :
    0x1000 ≤ a.toNat ∧ a.toNat + n.bytes ≤ 0x2000 := by
  simp only [accessLegal, hr, aligned, decide_eq_true_eq] at hl
  have h1 : 0x1000 ≤ a.toNat ∧ a.toNat < 0x2000 := by
    simp only [regionOf] at hr
    split at hr
    · cases hr
    · split at hr
      · rename_i h; simpa using h
      · split at hr
        · cases hr
        · split at hr <;> cases hr
  cases n <;> simp only [Width.bytes] at hl ⊢ <;> omega

/-- Everything a MemRead can do: a bus error, or the value read, and one draw used (R070, R071). -/
theorem memRead_some {s t : State} {a : Addr} {n : Width} {v : Word} (h : s.memRead a n = some (v, t)) :
    accessLegal a n = true ∧ v = s.readValue a n ∧ t = s.drawn := by
  simp only [State.memRead] at h
  split at h
  · rename_i hl
    simp only [Option.some.injEq, Prod.mk.injEq] at h
    exact ⟨hl, h.1.symm, h.2.symm⟩
  · cases h

/-- Everything a write to a register can do. -/
theorem writeReg_cases (s : State) (off : Nat) (v : Word) :
    s.writeReg off v = s ∨
    (off = 0x00C ∧ s.writeReg off v = s.writeStatus v) ∨
    (s.busy = true ∧ s.writeReg off v = s.dropWrite) ∨
    (s.busy = false ∧
      ((off = 0x004 ∧ s.writeReg off v = { s with ctrl := Ctrl.ofWord v }) ∨
       (off = 0x008 ∧ s.writeReg off v = s.accept v) ∨
       (off = 0x010 ∧ s.writeReg off v = { s with len := v.extractLsb' 0 16 }) ∨
       (off = 0x014 ∧ s.writeReg off v = { s with vsel := v.extractLsb' 0 6 }) ∨
       (off = 0x018 ∧ s.writeReg off v = { s with eccLen := v.extractLsb' 0 8 }))) := by
  unfold State.writeReg
  cases hb : s.busy
  · split <;> simp [State.unlessBusy, hb]
  · split <;> simp [State.unlessBusy, hb]

/-- Everything a MemWrite can do (R070, R100, R205, 10_state.md R037). -/
theorem memWrite_some {s t : State} {a : Addr} {n : Width} {v : Word} (h : s.memWrite a n v = some t) :
    accessLegal a n = true ∧
    (t = s ∨
     (a.toNat = 0x00C ∧ t = s.writeStatus v) ∨
     (s.busy = true ∧ t = s.dropWrite) ∨
     (s.busy = false ∧
       ((a.toNat = 0x004 ∧ t = { s with ctrl := Ctrl.ofWord v }) ∨
        (a.toNat = 0x008 ∧ t = s.accept v) ∨
        (a.toNat = 0x010 ∧ t = { s with len := v.extractLsb' 0 16 }) ∨
        (a.toNat = 0x014 ∧ t = { s with vsel := v.extractLsb' 0 6 }) ∨
        (a.toNat = 0x018 ∧ t = { s with eccLen := v.extractLsb' 0 8 }) ∨
        (regionOf a = .inbuf ∧ t = { s with mem := Memory.write s.mem a.toNat (leBytes v n.bytes) })))) := by
  simp only [State.memWrite] at h
  split at h
  · rename_i hl
    refine ⟨hl, ?_⟩
    obtain rfl : s.writeValue a n v = t := by simpa using h
    unfold State.writeValue
    split
    · rcases writeReg_cases s a.toNat v with h | ⟨h, h'⟩ | ⟨h, h'⟩ | ⟨h, h'⟩
      · exact .inl h
      · exact .inr (.inl ⟨h, h'⟩)
      · exact .inr (.inr (.inl ⟨h, h'⟩))
      · refine .inr (.inr (.inr ⟨h, ?_⟩))
        rcases h' with h' | h' | h' | h' | h'
        · exact .inl h'
        · exact .inr (.inl h')
        · exact .inr (.inr (.inl h'))
        · exact .inr (.inr (.inr (.inl h')))
        · exact .inr (.inr (.inr (.inr (.inl h'))))
    · rename_i hr
      cases hb : s.busy with
      | true => exact .inr (.inr (.inl ⟨rfl, State.unlessBusy_of_busy hb _⟩))
      | false =>
        exact .inr (.inr (.inr ⟨rfl, .inr (.inr (.inr (.inr (.inr ⟨hr, State.unlessBusy_of_idle hb _⟩))))⟩))
    · exact .inl rfl
    · exact .inl rfl
    · exact .inl rfl
  · cases h

/-- Everything a HASM statement that goes on can do: a MemWrite or a MemRead of the statement's access, or nothing but the
host's own registers and place change (30_encoding.md R092). -/
theorem execHost_next {st : HostStmt} {s t : State} (h : execHost st s = .next t) :
    (∃ n a v u, st = .wr n a v ∧ s.memWrite a n (s.host.writeSrc v) = some u ∧ t = u.withHost u.host.advance) ∨
    (∃ n r a v u, st = .rd n r a ∧ s.memRead a n = some (v, u) ∧ t = u.withHost (u.host.set r v).advance) ∨
    (st.access? = none ∧ t = s.withHost t.host) := by
  have br : ∀ (b : Bool) (l : Label), hostBranch s b l = .next t → t = s.withHost t.host := by
    intro b l hb
    unfold hostBranch at hb
    split at hb
    · split at hb
      · cases hb; rfl
      · cases hb
    · cases hb; rfl
  cases st with
  | wr n a v =>
    simp only [execHost, hostWrite] at h
    split at h
    · rename_i u hu; cases h; exact .inl ⟨n, a, v, u, rfl, hu, rfl⟩
    · cases h
  | rd n r a =>
    simp only [execHost, hostRead] at h
    split at h
    · rename_i v u hu; cases h; exact .inr (.inl ⟨n, r, a, v, u, rfl, hu, rfl⟩)
    · cases h
  | li r v => cases h; exact .inr (.inr ⟨rfl, rfl⟩)
  | addi r q v => cases h; exact .inr (.inr ⟨rfl, rfl⟩)
  | andi r q v => cases h; exact .inr (.inr ⟨rfl, rfl⟩)
  | beqz r l => exact .inr (.inr ⟨rfl, br _ _ h⟩)
  | bnez r l => exact .inr (.inr ⟨rfl, br _ _ h⟩)
  | bne r v l => exact .inr (.inr ⟨rfl, br _ _ h⟩)
  | jmp l => exact .inr (.inr ⟨rfl, br _ _ h⟩)
  | halt => cases h; exact .inr (.inr ⟨rfl, rfl⟩)

/-- Whose turn it is: the ENGINE only with its command pending and nothing left to wait. -/
theorem turn_engine {s : State} {w : Word} (h : s.turn = .engine w) : s.pend = some w ∧ s.wait = 0 := by
  unfold State.turn at h
  split at h
  · rename_i hp hw; cases h; exact ⟨hp, hw⟩
  · split at h <;> cases h

/-- A command that is pending with nothing left to wait has its ENGINE step next. -/
theorem turn_of_pending {s : State} {w : Word} (hp : s.pend = some w) (hw : s.wait = 0) : s.turn = .engine w := by
  simp [State.turn, hp, hw]

/-- Everything a step that goes on can do, agent by agent. -/
theorem step_next {s t : State} (h : step s = .next t) :
    (∃ w, s.pend = some w ∧ s.wait = 0 ∧ engineStep w s = .next t) ∨
    (s.turn = .platform ∧ t = { s.platformReset with resets := s.resets.tail }) ∨
    (s.turn = .host ∧ hostStep s.tick = .next t) := by
  simp only [step, agentStep] at h
  split at h
  · rename_i w hw
    exact .inl ⟨w, (turn_engine hw).1, (turn_engine hw).2, h⟩
  · rename_i hp; cases h; exact .inr (.inl ⟨hp, rfl⟩)
  · rename_i hh; exact .inr (.inr ⟨hh, h⟩)

end Sys2Proof.Machine
end

