-- ==== Sys2Proof/Laws/Engine.lean ====
section
/-! SUPPORT. What each shared operation of the ENGINE can do, said once: the end of a command, the checks of each command rule, and
one inversion lemma for the ENGINE step. -/

namespace Sys2Proof.Machine

/-- A completed command leads to the completed result state. -/
@[simp] theorem finishCommand_ok (s t : State) : finishCommand s (.ok t) = .next t.complete := rfl

/-- An erroring command leads to the state after its error (60_exceptions.md R183). -/
@[simp] theorem finishCommand_error (s : State) (e : EngineError) :
    finishCommand s (.error e) = .next (s.afterError e.code e.info) := rfl

/-- The two ends of a command (R101, R183). -/
theorem finishCommand_next {s t : State} {r : Except EngineError State} (h : finishCommand s r = .next t) :
    (∃ u, r = .ok u ∧ t = u.complete) ∨ (∃ e, r = .error e ∧ t = s.afterError e.code e.info) := by
  cases r with
  | ok u => exact .inl ⟨u, rfl, by simpa using h.symm⟩
  | error e => exact .inr ⟨e, rfl, by simpa using h.symm⟩

/-- The selection GENERATE and SELECT work on (41_selector.md R115). -/
abbrev State.selection (s : State) : Selection := selectVersion s.inputLen s.lvl

/-- The result state of GENERATE before completion (40_commands.md R102). -/
abbrev State.generated (s : State) : State :=
  (s.writeSymbol s.selection (encodedLength s.inputLen s.selection.v s.selection.cfg)
    (generateSymbol s.params s.selection s.lvl
      (s.inbufBytes (encodedLength s.inputLen s.selection.v s.selection.cfg)) s.maskOverride))

/-- The result state of RSENC before completion (R105). -/
abbrev State.rsEncoded (s : State) : State :=
  (s.writeRsout (rsDivide (s.inbufBytes s.inputLen) s.eccCount) s.eccCount)

/-- GENERATE with an illegal level. -/
theorem runGenerate_level {s : State} (h : levelLegal s.lvl = false) : runGenerate s = .error (.invalidOption 1) := by
  simp [runGenerate, h]

/-- GENERATE with a legal level and an illegal override. -/
theorem runGenerate_override {s : State} (h : levelLegal s.lvl = true) (h2 : s.overrideIllegal = true) :
    runGenerate s = .error (.invalidOption 2) := by
  simp [runGenerate, h, h2]

/-- GENERATE with legal options and an oversize input under STRICT = 1. -/
theorem runGenerate_capacity {s : State} (h : levelLegal s.lvl = true) (h2 : s.overrideIllegal = false)
    (h3 : s.selection.fits = false) (h4 : s.ctrl.strict = true) : runGenerate s = .error .capacityExceeded := by
  simp [runGenerate, h, h2, h3, h4]

/-- GENERATE that succeeds. -/
theorem runGenerate_ok {s : State} (h : levelLegal s.lvl = true) (h2 : s.overrideIllegal = false)
    (h3 : s.selection.fits = true ∨ s.ctrl.strict = false) : runGenerate s = .ok s.generated := by
  rcases h3 with h3 | h3 <;> simp [runGenerate, h, h2, h3]

/-- The four ends of the rule of GENERATE (R102). -/
theorem runGenerate_cases (s : State) :
    runGenerate s = .error (.invalidOption 1) ∨ runGenerate s = .error (.invalidOption 2) ∨
    runGenerate s = .error .capacityExceeded ∨
    (levelLegal s.lvl = true ∧ s.overrideIllegal = false ∧ (s.selection.fits = true ∨ s.ctrl.strict = false) ∧
      runGenerate s = .ok s.generated) := by
  cases h : levelLegal s.lvl with
  | false => exact .inl (runGenerate_level h)
  | true =>
    cases h2 : s.overrideIllegal with
    | true => exact .inr (.inl (runGenerate_override h h2))
    | false =>
      cases h3 : s.selection.fits with
      | true => exact .inr (.inr (.inr ⟨rfl, rfl, .inl rfl, runGenerate_ok h h2 (.inl h3)⟩))
      | false =>
        cases h4 : s.ctrl.strict with
        | true => exact .inr (.inr (.inl (runGenerate_capacity h h2 h3 h4)))
        | false => exact .inr (.inr (.inr ⟨rfl, rfl, .inr rfl, runGenerate_ok h h2 (.inr h4)⟩))

/-- LOOKUP with an illegal level. -/
theorem runLookup_level {s : State} (h : levelLegal s.lvl = false) : runLookup s = .error (.invalidOption 1) := by
  simp [runLookup, h]

/-- LOOKUP with an illegal version. -/
theorem runLookup_version {s : State} (h : levelLegal s.lvl = true) (h2 : ¬ (1 ≤ s.versionSel ∧ s.versionSel ≤ 40)) :
    runLookup s = .error (.invalidOption 3) := by
  have h3 : (decide (1 ≤ s.versionSel) && decide (s.versionSel ≤ 40)) = false := by simpa using h2
  simp only [runLookup, h, h3]; rfl

/-- LOOKUP that succeeds. -/
theorem runLookup_ok {s : State} (h : levelLegal s.lvl = true) (h2 : 1 ≤ s.versionSel) (h3 : s.versionSel ≤ 40) :
    runLookup s = .ok (s.writeLookup s.versionSel (lookupCfg s.lvl s.versionSel)) := by
  simp [runLookup, h, h2, h3]

/-- The three ends of the rule of LOOKUP (R103). -/
theorem runLookup_cases (s : State) :
    runLookup s = .error (.invalidOption 1) ∨ runLookup s = .error (.invalidOption 3) ∨
    (levelLegal s.lvl = true ∧ 1 ≤ s.versionSel ∧ s.versionSel ≤ 40 ∧
      runLookup s = .ok (s.writeLookup s.versionSel (lookupCfg s.lvl s.versionSel))) := by
  cases h : levelLegal s.lvl with
  | false => exact .inl (runLookup_level h)
  | true =>
    by_cases h2 : 1 ≤ s.versionSel ∧ s.versionSel ≤ 40
    · exact .inr (.inr ⟨rfl, h2.1, h2.2, runLookup_ok h h2.1 h2.2⟩)
    · exact .inr (.inl (runLookup_version h h2))

/-- SELECT with an illegal level. -/
theorem runSelect_level {s : State} (h : levelLegal s.lvl = false) : runSelect s = .error (.invalidOption 1) := by
  simp [runSelect, h]

/-- SELECT with an oversize input under STRICT = 1. -/
theorem runSelect_capacity {s : State} (h : levelLegal s.lvl = true) (h3 : s.selection.fits = false)
    (h4 : s.ctrl.strict = true) : runSelect s = .error .capacityExceeded := by
  simp [runSelect, h, h3, h4]

/-- SELECT that succeeds. -/
theorem runSelect_ok {s : State} (h : levelLegal s.lvl = true) (h3 : s.selection.fits = true ∨ s.ctrl.strict = false) :
    runSelect s = .ok (s.writeSelection s.selection) := by
  rcases h3 with h3 | h3 <;> simp [runSelect, h, h3]

/-- The three ends of the rule of SELECT (R104). -/
theorem runSelect_cases (s : State) :
    runSelect s = .error (.invalidOption 1) ∨ runSelect s = .error .capacityExceeded ∨
    (levelLegal s.lvl = true ∧ (s.selection.fits = true ∨ s.ctrl.strict = false) ∧
      runSelect s = .ok (s.writeSelection s.selection)) := by
  cases h : levelLegal s.lvl with
  | false => exact .inl (runSelect_level h)
  | true =>
    cases h3 : s.selection.fits with
    | true => exact .inr (.inr ⟨rfl, .inl rfl, runSelect_ok h (.inl h3)⟩)
    | false =>
      cases h4 : s.ctrl.strict with
      | true => exact .inr (.inl (runSelect_capacity h h3 h4))
      | false => exact .inr (.inr ⟨rfl, .inr rfl, runSelect_ok h (.inr h4)⟩)

/-- RSENC with an illegal ECC length. -/
theorem runRsenc_ecclen {s : State} (h : ¬ (1 ≤ s.eccCount ∧ s.eccCount ≤ 30)) : runRsenc s = .error (.invalidOption 4) := by
  have h3 : (decide (1 ≤ s.eccCount) && decide (s.eccCount ≤ 30)) = false := by simpa using h
  simp only [runRsenc, h3]; rfl

/-- RSENC with too long a block. -/
theorem runRsenc_len {s : State} (h1 : 1 ≤ s.eccCount) (h2 : s.eccCount ≤ 30) (h3 : s.inputLen > 255 - s.eccCount) :
    runRsenc s = .error (.invalidOption 5) := by
  simp [runRsenc, h1, h2, h3]

/-- RSENC that succeeds. -/
theorem runRsenc_ok {s : State} (h1 : 1 ≤ s.eccCount) (h2 : s.eccCount ≤ 30) (h3 : s.inputLen ≤ 255 - s.eccCount) :
    runRsenc s = .ok s.rsEncoded := by
  have : ¬ s.inputLen > 255 - s.eccCount := by omega
  simp [runRsenc, h1, h2, this]

/-- The three ends of the rule of RSENC (R105). -/
theorem runRsenc_cases (s : State) :
    runRsenc s = .error (.invalidOption 4) ∨ runRsenc s = .error (.invalidOption 5) ∨
    (1 ≤ s.eccCount ∧ s.eccCount ≤ 30 ∧ s.inputLen ≤ 255 - s.eccCount ∧ runRsenc s = .ok s.rsEncoded) := by
  by_cases h : 1 ≤ s.eccCount ∧ s.eccCount ≤ 30
  · by_cases h3 : s.inputLen ≤ 255 - s.eccCount
    · exact .inr (.inr ⟨h.1, h.2, h3, runRsenc_ok h.1 h.2 h3⟩)
    · exact .inr (.inl (runRsenc_len h.1 h.2 (by omega)))
  · exact .inl (runRsenc_ecclen h)

/-- Everything the ENGINE step of a decoded command can do: it reports one of the errors of 60_exceptions.md R182, or it writes its
results and completes. -/
theorem exec_next {i : Instr} {s t : State} (h : exec i s = .next t) :
    (∃ e : EngineError, e ∈ [.invalidOption 1, .invalidOption 2, .invalidOption 3, .invalidOption 4, .invalidOption 5,
        .capacityExceeded] ∧ t = s.afterError e.code e.info) ∨
    (i = .nop ∧ t = s.complete) ∨
    (i = .generate ∧ levelLegal s.lvl = true ∧ s.overrideIllegal = false ∧
      (s.selection.fits = true ∨ s.ctrl.strict = false) ∧ t = s.generated.complete) ∨
    (i = .lookup ∧ levelLegal s.lvl = true ∧ 1 ≤ s.versionSel ∧ s.versionSel ≤ 40 ∧
      t = (s.writeLookup s.versionSel (lookupCfg s.lvl s.versionSel)).complete) ∨
    (i = .select ∧ levelLegal s.lvl = true ∧ (s.selection.fits = true ∨ s.ctrl.strict = false) ∧
      t = (s.writeSelection s.selection).complete) ∨
    (i = .rsenc ∧ 1 ≤ s.eccCount ∧ s.eccCount ≤ 30 ∧ s.inputLen ≤ 255 - s.eccCount ∧ t = s.rsEncoded.complete) := by
  have err : ∀ (r : Except EngineError State) (e : EngineError), finishCommand s r = .next t → r = .error e →
      t = s.afterError e.code e.info := by
    intro r e hf hr
    rcases finishCommand_next hf with ⟨u, hu, _⟩ | ⟨e', he, ht⟩
    · rw [hr] at hu; cases hu
    · rw [hr] at he; cases he; exact ht
  have ok : ∀ (r : Except EngineError State) (u : State), finishCommand s r = .next t → r = .ok u → t = u.complete := by
    intro r u hf hr
    rcases finishCommand_next hf with ⟨u', hu, ht⟩ | ⟨e', he, _⟩
    · rw [hr] at hu; cases hu; exact ht
    · rw [hr] at he; cases he
  cases i with
  | nop => exact .inr (.inl ⟨rfl, ok (.ok s) s h rfl⟩)
  | generate =>
    rcases runGenerate_cases s with hr | hr | hr | ⟨h1, h2, h3, hr⟩
    · exact .inl ⟨_, by simp, err _ _ h hr⟩
    · exact .inl ⟨_, by simp, err _ _ h hr⟩
    · exact .inl ⟨_, by simp, err _ _ h hr⟩
    · exact .inr (.inr (.inl ⟨rfl, h1, h2, h3, ok _ _ h hr⟩))
  | lookup =>
    rcases runLookup_cases s with hr | hr | ⟨h1, h2, h3, hr⟩
    · exact .inl ⟨_, by simp, err _ _ h hr⟩
    · exact .inl ⟨_, by simp, err _ _ h hr⟩
    · exact .inr (.inr (.inr (.inl ⟨rfl, h1, h2, h3, ok _ _ h hr⟩)))
  | select =>
    rcases runSelect_cases s with hr | hr | ⟨h1, h2, hr⟩
    · exact .inl ⟨_, by simp, err _ _ h hr⟩
    · exact .inl ⟨_, by simp, err _ _ h hr⟩
    · exact .inr (.inr (.inr (.inr (.inl ⟨rfl, h1, h2, ok _ _ h hr⟩))))
  | rsenc =>
    rcases runRsenc_cases s with hr | hr | ⟨h1, h2, h3, hr⟩
    · exact .inl ⟨_, by simp, err _ _ h hr⟩
    · exact .inl ⟨_, by simp, err _ _ h hr⟩
    · exact .inr (.inr (.inr (.inr (.inr ⟨rfl, h1, h2, h3, ok _ _ h hr⟩))))

end Sys2Proof.Machine
end

