-- ==== Sys2Proof/Laws/PerInstr.lean ====
section
/-! SUPPORT. What holds of every command as syntax, one lemma per constructor: its word is well formed and decodes to it. -/

namespace Sys2Proof.Laws.Encoding

/-- A command is well formed, its word has RSV = 0 and its own OP, and the decoder gives it back (30_encoding.md R085, R087, R088). -/
def Statement (i : Instr) : Prop :=
  i.wf = true ∧ cmdRsv (encode i) = 0 ∧ cmdOp (encode i) = opcode i ∧ decode (encode i) = .ok i

theorem nop : Statement .nop := ⟨rfl, by decide, by decide, rfl⟩

theorem generate : Statement .generate := ⟨rfl, by decide, by decide, rfl⟩

theorem lookup : Statement .lookup := ⟨rfl, by decide, by decide, rfl⟩

theorem select : Statement .select := ⟨rfl, by decide, by decide, rfl⟩

theorem rsenc : Statement .rsenc := ⟨rfl, by decide, by decide, rfl⟩

end Sys2Proof.Laws.Encoding
end

