-- ==== Sys2Proof/Tests/Slice0.lean ====
section
/-! SUPPORT. Small tests, their expected results taken from spec/ (95_test_vectors.md unless said otherwise), and for every
statement with hypotheses a witness that meets them. -/

namespace Sys2Proof.Tests

open Sys2Proof.Machine

/-! ### States the tests start from -/

/-- The ASCII bytes of "hello" (95 section 2). -/
def hello : List Byte := [0x68, 0x65, 0x6C, 0x6C, 0x6F]

/-- Reset, then bytes in INBUF, CTRL and LEN as a host would write them. -/
def ready (inbuf : List Byte) (ctrl : Word) (len : BitVec 16) : State :=
  { State.reset with ctrl := Ctrl.ofWord ctrl, len := len, mem := Memory.write [] Config.inbufBase inbuf }

/-- The same with the operands of LOOKUP and RSENC. -/
def withOperands (s : State) (vsel : BitVec 6) (eccLen : BitVec 8) : State := { s with vsel := vsel, eccLen := eccLen }

/-- A command word pending with n host steps to wait. -/
def pending (s : State) (w : Word) (n : Nat) : State := { s with pend := some w, wait := n }

/-- A host with these statements, at the first. -/
def hosting (s : State) (stmts : List HostStmt) : State :=
  { s with host := { s.host with prog := stmts.map fun st => { labels := [], stmt := st } } }

/-- A field of the next state. -/
def after (o : Host.Outcome State Fault Refusal) (f : State → Option Nat) : Option Nat :=
  match o with
  | .next t => f t
  | .fault _ => none
  | .refused _ => none

/-- STATUS after a step. -/
def statusAfter (o : Host.Outcome State Fault Refusal) : Option Nat := after o fun t => some t.statusWord.toNat

/-! ### Well-formedness, decoding, and the host's two questions -/

theorem test_command_wf : Instr.wf .rsenc = true := rfl

/-- A loop is well formed. -/
theorem test_program_wf :
    programWf [{ labels := [0], stmt := .rd .w4 7 0x00C }, { labels := [], stmt := .bnez 7 0 }] = true := by decide

/-- A label that stands twice is ill formed. -/
theorem test_program_duplicate_label :
    programWf [{ labels := [0], stmt := .halt }, { labels := [0], stmt := .jmp 0 }] = false := by decide

/-- A branch to a label that stands nowhere is ill formed. -/
theorem test_program_undefined_target : programWf [{ labels := [0], stmt := .jmp 1 }] = false := by decide

/-- R085, R088: bits 31:4 zero, bits 3:0 the opcode. -/
theorem test_decode_nop : decode 0b00000000000000000000000000000000#32 = .ok .nop := rfl
theorem test_decode_generate : decode 0b00000000000000000000000000000001#32 = .ok .generate := rfl
theorem test_decode_lookup : decode 0b00000000000000000000000000000010#32 = .ok .lookup := rfl
theorem test_decode_select : decode 0b00000000000000000000000000000011#32 = .ok .select := rfl
theorem test_decode_rsenc : decode 0b00000000000000000000000000000100#32 = .ok .rsenc := rfl

/-- R087: the ERRINFO bytes of illegal words. -/
theorem test_decode_reserved : decode 0x0000000A#32 = .error (.reservedOpcode 10) := rfl
theorem test_decode_rsv : decode 0xFFFFFFFF#32 = .error (.reservedBits 15) ∧ DecodeError.info (.reservedBits 15) = 0x1F := ⟨rfl, rfl⟩

/-- A word of the opcode table through the host's decoder. -/
theorem test_table_word : decodeTableWord 32 4 = some .rsenc ∧ decodeTableWord 32 0x104 = none ∧ decodeTableWord 4 0x14 = some .rsenc := by
  decide

/-- The very next step runs the placed word. -/
theorem test_fetch_word : step (State.reset.withFetchWord 32 2) = exec .lookup (State.reset.withFetchWord 32 2) := rfl

/-! ### The commands on the spec's vectors -/

/-- 95 section 5.2: LEVEL = 1, VSEL = 10. -/
theorem test_lookup_l10 :
    after (exec .lookup (withOperands (ready [] 0x100 0) 10 0)) (fun t =>
      if t.res.nb1 = 2 ∧ t.res.nb2 = 2 ∧ t.res.dbLen = 68 ∧ t.res.ebLen = 18 ∧ t.res.dataCw = 274 ∧ t.res.totalCw = 346 ∧
        t.res.width = 57 then some t.res.capacity.toNat else none) = some 271 := by decide

/-- 95 section 7: LOOKUP with VSEL = 41. -/
theorem test_lookup_41 : statusAfter (exec .lookup (withOperands (ready [] 0x100 0) 41 0)) = some 0x00030102 := by decide

/-- 95 section 5.1: LEVEL = 1, LEN = 18 selects version 2. -/
theorem test_select_18 :
    after (exec .select (ready [] 0x100 18)) (fun t =>
      if t.res.capacity = 32 ∧ t.res.effLen = 18 ∧ t.status.truncated = false then some t.res.version.toNat else none) = some 2 := by
  decide +kernel

/-- P6: LEN = 2954 at level L is CapacityExceeded under STRICT = 1 and truncated under STRICT = 0. -/
theorem test_select_2954 :
    statusAfter (exec .select (ready [] 0x102 2954)) = some 0x00000202 ∧
    statusAfter (exec .select (ready [] 0x100 2954)) = some 0x00000012 := by decide +kernel

/-- P3: the published version 1-M "HELLO WORLD" block. -/
def p3 : State :=
  withOperands (ready [0x20, 0x5B, 0x0B, 0x78, 0xD1, 0x72, 0xDC, 0x4D, 0x43, 0x40, 0xEC, 0x11, 0xEC, 0x11, 0xEC, 0x11] 0 16) 0 10

/-- P3: h0, h1 and h2 as the host reads them. -/
theorem test_rsenc_p3 :
    after (exec .rsenc p3) (fun t =>
      if t.readValue 0x2000 .w4 = 0x772723C4 ∧ t.readValue 0x2004 .w4 = 0xE2E7D7EB ∧ t.readValue 0x2008 .w2 = 0x175D ∧
        t.readValue 0x201C .w4 = 0 then some t.statusWord.toNat else none) = some 2 := by decide +kernel

/-- 95 section 3.3: ECCLEN = 2, data 01, and section 7: ECCLEN = 30 with LEN = 226. -/
theorem test_rsenc_limits :
    rsDivide [0x01] 2 = [0x03, 0x02] ∧
    statusAfter (exec .rsenc (withOperands (ready [] 0 226) 0 30)) = some 0x00050102 := by
  constructor <;> decide +kernel

/-- 95 section 2.4, k = 2: STATUS, FMTWORD and MATRIX[0..55] of "hello" with an override. -/
theorem test_generate_hello :
    after (exec .generate (ready hello 0x124 5)) (fun t =>
      if t.statusWord = 2 ∧ t.res.fmtWord = 0x7DAA ∧ t.res.score[2] = 0 then
        some (leValue ((List.range 57).map fun k => t.readByte (0x4000 + k))) else none) =
    some (leValue [0x7F, 0xDC, 0x3F, 0xE8, 0x0A, 0x76, 0x71, 0xDD, 0xAE, 0xA9, 0xDB, 0x25, 0x75, 0x83, 0x92, 0xE0, 0x5F, 0xF5, 0x07,
      0x10, 0x00, 0xDF, 0xA9, 0xAA, 0x63, 0xCF, 0x8A, 0x59, 0xBB, 0x57, 0x3C, 0xC3, 0x1C, 0x09, 0x01, 0x26, 0xE5, 0x5F, 0x4A, 0x0B,
      0x32, 0x7C, 0x5D, 0x29, 0xA9, 0xAB, 0x5F, 0x74, 0x45, 0x93, 0xA0, 0xBD, 0xF3, 0x37, 0x91, 0x00, 0x00]) := by decide +kernel

/-- 95 section 7: the level is checked before the override, the override before the capacity. -/
theorem test_generate_errors :
    statusAfter (exec .generate (ready [] 0x094 5)) = some 0x00010102 ∧
    statusAfter (exec .generate (ready [] 0x196 65535)) = some 0x00020102 ∧
    statusAfter (exec .generate (ready [] 0x402 1274)) = some 0x00000202 := by decide +kernel

/-- 95 section 7: NOP after an error clears the report; SCORE_VALID stays. -/
theorem test_nop_clears_report :
    statusAfter (exec .nop ({ State.reset with
      status := { Status.zero with scoreValid := true, done := true, err := 4, errInfo := 5 } }.accept 0)) = some 0xA := rfl

/-- 95 section 7: the illegal words 5, 0x11 and 0xFFFFFFFF. -/
theorem test_illegal_words :
    statusAfter (step (pending State.reset 5 0)) = some 0x00050402 ∧
    statusAfter (step (pending State.reset 0x11 0)) = some 0x00110402 ∧
    statusAfter (step (pending State.reset 0xFFFFFFFF 0)) = some 0x001F0402 := by decide

/-! ### The stages on the spec's vectors -/

/-- 95 section 3.1. -/
theorem test_field : gfMul 0x02 0x80 = 0x1D ∧ gfMul 0x53 0xCA = 0x8F ∧ gfMul 0xFF 0xFF = 0xE2 ∧ gfMul 0 5 = 0 := by decide +kernel

/-- 95 section 3.2. -/
theorem test_generator : genPoly 7 = [0x75, 0x44, 0x0B, 0xA4, 0x9A, 0x7A, 0x7F, 0x01] ∧ genLog 2 = [1, 25, 0] := by decide +kernel

/-- 95 section 2.1: the codewords of "hello", and section 5.3: the 16-bit count of version 10. -/
theorem test_codewords :
    encodeCodewords hello 1 19 = [0x40, 0x56, 0x86, 0x56, 0xC6, 0xC6, 0xF0, 0xEC, 0x11, 0xEC, 0x11, 0xEC, 0x11, 0xEC, 0x11, 0xEC,
      0x11, 0xEC, 0x11] ∧
    (encodeCodewords (List.replicate 231 0x41) 10 274).take 5 = [0x40, 0x0E, 0x74, 0x14, 0x14] := by decide +kernel

/-- 45_interleave.md R148 and 44_reed_solomon.md R146 by hand on a small shape: one short block of two bytes, two long ones. -/
theorem test_interleave :
    interleave [1, 2, 3, 4, 5, 6, 7, 8] [11, 12, 13] { nb1 := 1, nb2 := 2, d := 2, e := 1 } =
      [1, 3, 6, 2, 4, 7, 5, 8, 11, 12, 13] := by decide

/-- 95 section 6.1: free cells and alignment centres. -/
theorem test_free_cells : (path (layout 1).excl 21).length = 208 := by decide +kernel
theorem test_alignment_centres :
    alignCentres 2 = [(18, 18)] ∧ alignCentres 1 = [] ∧
    (alignCentres 7).length = 6 ∧
    [(6, 22), (22, 6), (22, 22), (22, 38), (38, 22), (38, 38)].all (alignCentres 7).contains = true := by decide +kernel

/-- 95 section 2.2: where the path starts, and the last cells of version 1. -/
theorem test_path_ends :
    (path (layout 1).excl 21).take 4 = [(20, 20), (19, 20), (20, 19), (19, 19)] ∧
    (path (layout 1).excl 21).drop 204 = [(1, 11), (0, 11), (1, 12), (0, 12)] := by decide +kernel

/-- A line of light and dark modules written 0 and 1. -/
def line (bits : List Nat) : List Bool := bits.map (· = 1)

/-- 95 section 6.2. -/
theorem test_line_penalties :
    linePenalty Config.defaultParams (line [1, 0, 1, 1, 1, 0, 1]) = 40 ∧
    linePenalty Config.defaultParams (line [0, 0, 0, 0, 0, 1, 0, 1, 1, 1, 0, 1, 0, 0, 0, 0]) = 43 ∧
    linePenalty Config.defaultParams (line [0, 0, 0, 0, 1, 0, 1, 1, 1, 0, 1, 0, 0, 0, 0, 1]) = 40 ∧
    linePenalty Config.defaultParams (line [0, 1, 0, 1, 1, 1, 0, 1, 0, 1]) = 0 ∧
    linePenalty Config.defaultParams (line [1, 1, 1, 1, 1, 0, 0, 0, 0, 0]) = 6 := by decide

/-- 47_mask_finish.md R154 by hand at (1, 2): x + y = 3, x div 3 + y div 2 = 1, x·y = 2. -/
theorem test_mask_predicates :
    (List.range 8).map (fun k => maskPred k (1, 2)) = [false, true, false, true, false, false, true, false] := by decide

/-- 95 section 6.2: a uniform matrix of width 21 scores 2088. -/
theorem test_uniform_score : score Config.defaultParams 0 21 = 2088 := by decide +kernel

/-- 95 section 6.3. -/
theorem test_tie_breaking :
    bestMask none [5, 5, 5, 5, 5, 5, 5, 5] = 0 ∧ bestMask none [9, 7, 7, 8, 9, 9, 9, 9] = 1 ∧
    bestMask none [9, 9, 9, 9, 9, 9, 9, 3] = 7 ∧ bestMask (some 30000) [30000, 30001, 40000, 30000, 30000, 30000, 30000, 30000] = 0 := by
  decide

/-- 95 section 2.3: the score of "hello" under mask 2. -/
theorem test_hello_score :
    (let lay := layout 1
     let c := lookupCfg 1 1
     let cw := encodeCodewords hello 1 19
     score Config.defaultParams (applyMask lay.excl 21 (pack lay (interleave cw (rsBlocks cw c) c) 21) 2) 21) = 1071 := by
  decide +kernel

/-! ### The bus and the host -/

/-- 95 section 7: wr32 0x1000, 0x6C6C6568, then rd8 0x1001 and rd16 0x1002. -/
theorem test_mixed_widths :
    (State.reset.writeValue 0x1000 .w4 0x6C6C6568).readValue 0x1001 .w1 = 0x65 ∧
    (State.reset.writeValue 0x1000 .w4 0x6C6C6568).readValue 0x1002 .w2 = 0x6C6C := by decide +kernel

/-- 95 section 7: the bus errors of the access table. -/
theorem test_bus_errors :
    [accessLegal 0x000 .w1, accessLegal 0x00C .w2, accessLegal 0x002 .w4, accessLegal 0x100 .w4, accessLegal 0x2020 .w1,
      accessLegal 0x5000 .w1, accessLegal 0x7FFC .w4, accessLegal 0x1001 .w2, accessLegal 0x4002 .w4].all (!·) = true ∧
    accessLegal 0x01C .w4 = true ∧ accessLegal 0x4FFF .w1 = true := by decide

/-- 95 section 7: a write while BUSY = 1 is dropped. -/
theorem test_dropped_write :
    ((pending State.reset 1 3).memWrite 0x1000 .w1 0).map (fun t => (t.status.overrun, t.pend, t.mem)) =
      some (true, some 1#32, []) := by decide

/-- 95 section 7: STATUS ← 6 leaves SCORE_VALID; STATUS ← 0xFFFFFFF9 changes nothing. -/
theorem test_w1c :
    (State.writeStatus { State.reset with status := { Status.zero with done := true, scoreValid := true } } 6).statusWord = 8 ∧
    (State.writeStatus { State.reset with status := { Status.zero with done := true, scoreValid := true } } 0xFFFFFFF9).statusWord = 0xA := by
  decide

/-- P2: `ctrl level=1, movr=3` is 0x134, and P6: `ctrl level=1, strict=1` is 0x102. -/
theorem test_ctrl_pseudo :
    Hasm.ctrlValue 1 false false (some 3) = 0x134 ∧ Hasm.ctrlValue 1 false true none = 0x102 := by decide

/-- 30_encoding.md R093: `wait_done` and `wrstr`. -/
theorem test_expansions :
    (Pseudo.waitDone 4).expand.map HostLine.stmt = [.rd .w4 7 0x00C, .andi 7 7 1, .bnez 7 4] ∧
    (Pseudo.wrstr 0x1000 "he").expand.map HostLine.stmt = [.wr .w1 0x1000 (.const 0x68), .wr .w1 0x1001 (.const 0x65)] := by decide

/-- 30_encoding.md R092: `addi` wraps modulo 2^32. -/
theorem test_addi_wraps :
    after (execHost (.addi 2 1 1) { State.reset with host := HostAgent.set HostAgent.idle 1 0xFFFFFFFF })
      (fun t => some ((t.host.get 2).toNat + t.host.pos)) = some 1 := by decide

/-! ### Witnesses: states and operands that meet the hypotheses of the statements, clause by clause -/

/-- Every command ends in a next state. -/
theorem exec_completes (i : Instr) (s : State) : ∃ t, exec i s = .next t := by
  cases i
  · exact ⟨_, rfl⟩
  · rcases runGenerate_cases s with h | h | h | ⟨-, -, -, h⟩ <;> simp [exec, execGenerate, h]
  · rcases runLookup_cases s with h | h | ⟨-, -, -, h⟩ <;> simp [exec, execLookup, h]
  · rcases runSelect_cases s with h | h | ⟨-, -, h⟩ <;> simp [exec, execSelect, h]
  · rcases runRsenc_cases s with h | h | ⟨-, -, -, h⟩ <;> simp [exec, execRsenc, h]

/-- NopOnlyCompletes: the shortest and the longest RSV with OP = 0. -/
theorem witness_nop_rsv :
    [0x00000010#32, 0xFFFFFFF0#32].all (fun w =>
      decide ((pending State.reset w 0).pend = some w ∧ (pending State.reset w 0).wait = 0 ∧ cmdOp w = 0 ∧ cmdRsv w ≠ 0)) = true := by
  decide

/-- PendingWordIsDecodedInOrder, clause by clause. -/
theorem witness_pending_words :
    (∀ w : Word, (pending State.reset w 0).pend = some w ∧ (pending State.reset w 0).wait = 0) ∧
    cmdRsv 0x10 ≠ 0 ∧ cmdRsv 0xFFFFFFFF ≠ 0 ∧ (cmdRsv 0 = 0 ∧ cmdOp 0 = 0x0) ∧ (cmdRsv 1 = 0 ∧ cmdOp 1 = 0x1) ∧
    (cmdRsv 2 = 0 ∧ cmdOp 2 = 0x2) ∧ (cmdRsv 3 = 0 ∧ cmdOp 3 = 0x3) ∧ (cmdRsv 4 = 0 ∧ cmdOp 4 = 0x4) ∧
    (cmdRsv 5 = 0 ∧ 5 ≤ (cmdOp 5).toNat) ∧ (cmdRsv 15 = 0 ∧ 5 ≤ (cmdOp 15).toNat) := by
  refine ⟨fun w => ⟨rfl, rfl⟩, ?_⟩
  decide

/-- StepRunsTheDecodedCommand and EveryEngineStepCompletes. -/
theorem witness_decoded_command :
    (pending State.reset 4 0).pend = some 4#32 ∧ (pending State.reset 4 0).wait = 0 ∧ decode 4#32 = .ok .rsenc ∧
    Instr.wf .rsenc = true ∧ (pending State.reset 4 0).turn = .engine 4 := ⟨rfl, rfl, rfl, rfl, rfl⟩

/-- DecodeAndEncodeAgree: a word that decodes. -/
theorem witness_decoding_word : decode 4#32 = .ok .rsenc := rfl

/-- LookupReadsOneEntryOfTheBlockTable: both errors and both ends of the success clause. -/
theorem witness_lookup_clauses :
    (withOperands (ready [] 0x000 0) 1 0).lvl = 0 ∧ (withOperands (ready [] 0x500 0) 1 0).lvl = 5 ∧
    ((withOperands (ready [] 0x400 0) 0 0).lvl = 4 ∧ (withOperands (ready [] 0x400 0) 0 0).versionSel = 0) ∧
    ((withOperands (ready [] 0x100 0) 41 0).lvl = 1 ∧ (withOperands (ready [] 0x100 0) 41 0).versionSel = 41) ∧
    ((withOperands (ready [] 0x100 0) 1 0).lvl = 1 ∧ (withOperands (ready [] 0x100 0) 1 0).versionSel = 1) ∧
    ((withOperands (ready [] 0x400 0) 40 0).lvl = 4 ∧ (withOperands (ready [] 0x400 0) 40 0).versionSel = 40) := by decide

/-- SelectReportsTheSmallestVersion and GenerateRunsTheSevenStages: the level, the strict policy at CAP(40) + 1, and success at both
sides of CAP(40). -/
theorem witness_select_clauses :
    (ready [] 0x000 0).lvl = 0 ∧
    (capacityOf 40 (lookupCfg 4 40) < (ready [] 0x402 1274).inputLen ∧ (ready [] 0x402 1274).ctrl.strict = true) ∧
    ((ready [] 0x402 1273).inputLen ≤ capacityOf 40 (lookupCfg 4 40)) ∧
    (capacityOf 40 (lookupCfg 4 40) < (ready [] 0x400 1274).inputLen ∧ (ready [] 0x400 1274).ctrl.strict = false) ∧
    capacityOf 1 (lookupCfg 4 1) = 7 ∧ capacityOf 1 (lookupCfg 4 1) < 8 ∧ 8 ≤ capacityOf 2 (lookupCfg 4 2) := by decide +kernel

/-- The capacity table SelectReportsTheSmallestVersion names. -/
theorem witness_select_capacities : ∃ cap : Nat → Nat, ∀ u, cap u = capacityOf u (lookupCfg 1 u) := ⟨_, fun _ => rfl⟩

/-- GenerateRunsTheSevenStages: an illegal override, a legal one at 7, and the selection that does not fit under STRICT = 1. -/
theorem witness_generate_clauses :
    ((ready [] 0x184 0).lvl = 1 ∧ (ready [] 0x184 0).ctrl.movrEn = true ∧ (ready [] 0x184 0).ctrl.movr.toNat > 7) ∧
    ((ready [] 0x174 0).ctrl.movrEn = true ∧ ¬ (ready [] 0x174 0).ctrl.movr.toNat > 7) ∧
    ((selectVersion 1274 4).fits = false ∧ (ready [] 0x402 1274).ctrl.strict = true) ∧
    ((selectVersion 1273 4).fits = true ∧ (ready [] 0x402 1273).inputLen = 1273) := by decide +kernel

/-- RsencWritesTheRemainder: its two errors and both ends of its success clause. -/
theorem witness_rsenc_clauses :
    (withOperands (ready [] 0 0) 0 0).eccCount = 0 ∧ (withOperands (ready [] 0 0) 0 31).eccCount = 31 ∧
    ((withOperands (ready [] 0 226) 0 30).eccCount = 30 ∧ (withOperands (ready [] 0 226) 0 30).inputLen > 255 - 30) ∧
    ((withOperands (ready [] 0 225) 0 30).eccCount = 30 ∧ (withOperands (ready [] 0 225) 0 30).inputLen ≤ 255 - 30) ∧
    ((withOperands (ready [] 0 254) 0 1).eccCount = 1 ∧ (withOperands (ready [] 0 254) 0 1).inputLen ≤ 255 - 1) := by decide

/-- GenerateReportsItsSymbol: a fitting input under STRICT with an override at 7, and an oversize one under STRICT = 0. -/
theorem witness_generate_reports :
    (1 ≤ (ready [] 0x176 2953).lvl ∧ (ready [] 0x176 2953).lvl ≤ 4 ∧
      ((ready [] 0x176 2953).ctrl.movrEn = true ∧ (ready [] 0x176 2953).ctrl.movr.toNat ≤ 7) ∧
      (ready [] 0x176 2953).inputLen ≤ capacityOf 40 (lookupCfg 1 40)) ∧
    (1 ≤ (ready [] 0x400 65535).lvl ∧ (ready [] 0x400 65535).lvl ≤ 4 ∧ (ready [] 0x400 65535).ctrl.movrEn = false ∧
      capacityOf 40 (lookupCfg 4 40) < (ready [] 0x400 65535).inputLen ∧ (ready [] 0x400 65535).ctrl.strict = false) := by
  decide +kernel

/-- ErroringCommandChangesOnlyTheReport: an error of every command that has one. -/
theorem witness_erroring_commands :
    (∃ t, exec .generate State.reset = .next t ∧ State.reset.status.err = 0 ∧ t.status.err ≠ 0) ∧
    (∃ t, exec .lookup State.reset = .next t ∧ t.status.err ≠ 0) ∧
    (∃ t, exec .select State.reset = .next t ∧ t.status.err ≠ 0) ∧
    (∃ t, exec .rsenc State.reset = .next t ∧ t.status.err ≠ 0) :=
  ⟨⟨_, rfl, rfl, by decide⟩, ⟨_, rfl, by decide⟩, ⟨_, rfl, by decide⟩, ⟨_, rfl, by decide⟩⟩

/-- ReservedErrorCodesAreNeverReported: ERR changes at an illegal word, and at an acceptance. -/
theorem witness_error_changes :
    (∃ t, step (pending State.reset 5 0) = .next t ∧ t.status.err ≠ (pending State.reset 5 0).status.err) ∧
    (∃ t, step (hosting (State.reset.afterError 4 5) [.wr .w4 0x008 (.const 0)]) = .next t ∧
      t.status.err ≠ (State.reset.afterError 4 5).status.err) :=
  ⟨⟨_, rfl, by decide⟩, ⟨_, rfl, by decide⟩⟩

/-- EngineNeverWritesOperands, RegisterCommandsFrame and StoringCommandsFrame: each command answers a next state. -/
theorem witness_frames :
    (∃ t, exec .nop p3 = .next t) ∧ (∃ t, exec .lookup (withOperands (ready [] 0x100 0) 40 0) = .next t) ∧
    (∃ t, exec .select (ready [] 0x100 18) = .next t) ∧ (∃ t, exec .rsenc p3 = .next t) ∧
    (∃ t, exec .generate (ready hello 0x100 5) = .next t) :=
  ⟨exec_completes _ _, exec_completes _ _, exec_completes _ _, exec_completes _ _, exec_completes _ _⟩

/-- HostStepsNeverWriteResults and NoStepChangesParametersOrProgram: a host write to MATRIX is a step. -/
theorem witness_host_step :
    (hosting State.reset [.wr .w1 0x4000 (.const 0xFF)]).turn = .host ∧
    (∃ t, step (hosting State.reset [.wr .w1 0x4000 (.const 0xFF)]) = .next t) ∧ isMatrix 0x4000 = true ∧ isRsout 0x201F = true :=
  ⟨rfl, ⟨_, rfl⟩, by decide, by decide⟩

/-- EveryStepKeepsTheInvariant: the machine with NOP pending has the invariant and a step. -/
theorem witness_invariant : (pending State.reset 0 0).Inv ∧ ∃ t, step (pending State.reset 0 0) = .next t :=
  ⟨{ memWf := by decide, rsoutWhole := by decide +kernel, matrixWhole := by decide +kernel, reportLegal := by decide
     pendingClear := by decide, symbolLegal := by decide, scoresClear := by decide, formatLegal := by decide
     versionLegal := by decide }, ⟨_, rfl⟩⟩

/-- PlatformResetResetsTheBlock: a reset that comes with a command pending. -/
theorem witness_platform_turn : State.turn { pending (ready hello 0x100 5) 1 2 with resets := [0, 7] } = .platform := rfl

/-- BusErrorFaultsTheHostStep: an unmapped write and a misaligned read. -/
theorem witness_bus_error :
    (hosting State.reset [.wr .w1 0x2020 (.const 0)]).turn = .host ∧ accessLegal 0x2020 .w1 = false ∧
    (hosting State.reset [.wr .w1 0x2020 (.const 0)]).host.stmt? = some (.wr .w1 0x2020 (.const 0)) ∧
    (hosting State.reset [.rd .w2 0 0x1001]).turn = .host ∧ accessLegal 0x1001 .w2 = false ∧
    (hosting State.reset [.rd .w2 0 0x1001]).host.stmt? = some (.rd .w2 0 0x1001) := by decide

/-- HostAccessStatements: a write of a host register at the top of INBUF and a read of the last register. -/
theorem witness_host_access :
    (hosting State.reset [.wr .w4 0x1FFC (.reg 3)]).turn = .host ∧ accessLegal 0x1FFC .w4 = true ∧
    (hosting State.reset [.wr .w4 0x1FFC (.reg 3)]).host.stmt? = some (.wr .w4 0x1FFC (.reg 3)) ∧
    (hosting State.reset [.rd .w4 7 0x07C]).turn = .host ∧ accessLegal 0x07C .w4 = true ∧
    (hosting State.reset [.rd .w4 7 0x07C]).host.stmt? = some (.rd .w4 7 0x07C) := by decide

/-- AcceptanceOfACommand, ReadWriteRegistersKeepTheirFields and RegistersReadAsTheMapSays: BUSY = 0 and BUSY = 1, and the ends of the
reserved range. -/
theorem witness_busy_or_not :
    State.reset.pend = none ∧ (pending State.reset 1 3).pend ≠ none ∧ (0x0FC : Addr).toNat < 0x100 ∧ (0x080 ≤ 0x080 ∧ 0x0FF < 0x100) :=
  ⟨rfl, by decide, by decide, by decide⟩

/-- BusyBlockDropsWrites and BusyBlockStillReadsItsOperands, at the ends of each range. -/
theorem witness_busy_accesses :
    (pending State.reset 1 3).pend ≠ none ∧ accessLegal 0x0FE .w4 = false ∧
    [(0x004#15, Width.w4), (0x018, .w4), (0x1000, .w1), (0x1FFF, .w1), (0x00C, .w4), (0x01C, .w4), (0x0FC, .w4), (0x000, .w4),
      (0x2000, .w4), (0x4FFF, .w1)].all (fun p => accessLegal p.1 p.2) = true ∧
    (∃ t, (pending State.reset 1 3).memWrite 0x1FFF .w1 7 = some t) := ⟨by decide, by decide, by decide, ⟨_, rfl⟩⟩

/-- PendingCommandKeepsItsOperands: two host steps of three. -/
theorem witness_pending_run :
    (pending (hosting (ready hello 0x100 5) [.wr .w4 0x010 (.const 0), .rd .w4 7 0x00C]) 1 3).pend = some 1 ∧
    (pending (hosting (ready hello 0x100 5) [.wr .w4 0x010 (.const 0), .rd .w4 7 0x00C]) 1 3).resets = [] ∧
    2 ≤ (pending (hosting (ready hello 0x100 5) [.wr .w4 0x010 (.const 0), .rd .w4 7 0x00C]) 1 3).wait ∧
    ∃ t, Host.Core.run core 2 (pending (hosting (ready hello 0x100 5) [.wr .w4 0x010 (.const 0), .rd .w4 7 0x00C]) 1 3) = .next t :=
  ⟨rfl, rfl, by decide, ⟨_, rfl⟩⟩

/-- EngineStepComesAfterHalt: at `halt` with two steps to wait, and past the end of a program with none. -/
theorem witness_ended :
    ((pending (hosting State.reset [.halt]) 3 2).pend = some 3 ∧ (pending (hosting State.reset [.halt]) 3 2).resets = [] ∧
      (pending (hosting State.reset [.halt]) 3 2).host.ended = true) ∧
    ((pending State.reset 3 0).pend = some 3 ∧ (pending State.reset 3 0).resets = [] ∧ (pending State.reset 3 0).host.ended = true) := by
  decide

/-- EffectsOfHostAccesses, each clause at the ends of its range. -/
theorem witness_effects :
    [(0x000#15, Width.w4), (0x01C, .w4), (0x0FC, .w4), (0x2000, .w1), (0x4FFC, .w4)].all (fun p => accessLegal p.1 p.2) = true ∧
    (∃ t, State.reset.memWrite 0x00C .w4 6 = some t) ∧ (∃ t, State.reset.memWrite 0x1FFF .w1 6 = some t) ∧
    (∃ x t, State.reset.memRead 0x07C .w4 = some (x, t)) := ⟨by decide, ⟨_, rfl⟩, ⟨_, rfl⟩, ⟨_, _, rfl⟩⟩

/-- InbufWritesAreLittleEndian: the last word of INBUF, and its last byte read back. -/
theorem witness_inbuf_write :
    State.reset.pend = none ∧ accessLegal 0x1FFC .w4 = true ∧ accessLegal 0x1000 .w1 = true ∧ accessLegal 0x1FFF .w1 = true ∧
    (0x1FFC : Addr).toNat ≤ (0x1FFF : Addr).toNat ∧ (0x1FFF : Addr).toNat + Width.w1.bytes ≤ (0x1FFC : Addr).toNat + Width.w4.bytes := by
  decide

/-- A machine with IRQ = 1: DONE and IE set. -/
def interrupting : State := { ready [] 0x001 0 with status := { Status.zero with done := true } }

/-- InterruptRisesAndFallsOnlyAsSaid: the two rises. -/
theorem witness_irq_rises :
    (∃ t, step (pending (ready [] 0x001 0) 0 0) = .next t ∧ (pending (ready [] 0x001 0) 0 0).irq = false ∧ t.irq = true) ∧
    (∃ t, step (hosting { interrupting with ctrl := Ctrl.zero } [.wr .w4 0x004 (.const 1)]) = .next t ∧
      (hosting { interrupting with ctrl := Ctrl.zero } [.wr .w4 0x004 (.const 1)]).irq = false ∧ t.irq = true) :=
  ⟨⟨_, rfl, rfl, rfl⟩, ⟨_, rfl, rfl, rfl⟩⟩

/-- InterruptRisesAndFallsOnlyAsSaid: the four falls. -/
theorem witness_irq_falls :
    interrupting.irq = true ∧
    (∃ t, step (hosting interrupting [.wr .w4 0x00C (.const 2)]) = .next t ∧ t.irq = false) ∧
    (∃ t, step (hosting interrupting [.wr .w4 0x008 (.const 0)]) = .next t ∧ t.irq = false) ∧
    (∃ t, step (hosting interrupting [.wr .w4 0x004 (.const 0)]) = .next t ∧ t.irq = false) ∧
    (∃ t, step { interrupting with resets := [0] } = .next t ∧ t.irq = false) :=
  ⟨rfl, ⟨_, rfl, rfl⟩, ⟨_, rfl, rfl⟩, ⟨_, rfl, rfl⟩, ⟨_, rfl, rfl⟩⟩

/-- OverrunOnlyByADroppedWrite: set by a dropped write to ECCLEN and to the last byte of INBUF, cleared by the host and by a reset. -/
theorem witness_overrun :
    (∃ t, step (pending (hosting State.reset [.wr .w4 0x018 (.const 7)]) 1 1) = .next t ∧ t.status.overrun = true) ∧
    (∃ t, step (pending (hosting State.reset [.wr .w1 0x1FFF (.const 7)]) 1 1) = .next t ∧ t.status.overrun = true) ∧
    (∃ t, step (hosting State.reset.dropWrite [.wr .w4 0x00C (.const 4)]) = .next t ∧ State.reset.dropWrite.status.overrun = true ∧
      t.status.overrun = false) ∧
    (∃ t, step { State.reset.dropWrite with resets := [0] } = .next t ∧ t.status.overrun = false) :=
  ⟨⟨_, rfl, rfl⟩, ⟨_, rfl, rfl⟩, ⟨_, rfl, rfl, rfl⟩, ⟨_, rfl, rfl⟩⟩

/-- HostOnlyStatements: h0 = 0 and h1 = 1 in a program that has label 5 at its second statement, and no label 6. -/
theorem witness_branches :
    (let s := { State.reset with host := {
        regs := (Vector.replicate 8 0).set 1 1
        prog := [{ labels := [], stmt := .halt }, { labels := [4, 5], stmt := .jmp 5 }], pos := 0 } }
     s.host.get 0 = 0 ∧ s.host.get 1 ≠ 0 ∧ s.host.get 1 = 1 ∧ s.host.get 1 ≠ 2 ∧
     findLabel 5 s.host.prog = some 1 ∧ s.host.prog[0]?.isSome = true ∧ findLabel 6 s.host.prog = none) := by decide

/-- BlockTableCapacitiesRise, EncodedLengthIsTheCapacityLimit and CodewordBufferIsExactlyFull: a full version 9 and a full version 10. -/
theorem witness_full_codewords :
    (List.replicate 230 (0x41 : Byte)).length ≤ capacityOf 9 (lookupCfg 1 9) ∧
    (List.replicate 271 (0x41 : Byte)).length ≤ capacityOf 10 (lookupCfg 1 10) ∧ (1 ≤ 9 ∧ 9 ≤ 39) ∧ (1 ≤ 40 ∧ 40 ≤ 40) := by
  decide +kernel

/-- LayoutReservesEveryDarkCell and ExclusionAddressIsSymmetricAndExact: a dark cell, and two cells of one address. -/
theorem witness_dark_cell :
    Bitmap.cell (layout 1).mod 21 (20, 0) = true ∧ xbit (3, 20) = xbit (20, 3) ∧ 20 < symbolWidth 1 := by decide +kernel

/-- ExpAndLogTables, GeneratorPolynomials, CodewordsHaveZeroSyndrome and FormatAndVersionWordsAreCodewords: the ends of their ranges. -/
theorem witness_ranges :
    (1 ≤ 1 ∧ 254 ≤ 254) ∧ (1 ≤ 30 ∧ 30 ≤ 30 ∧ 29 < 30) ∧ (1 ≤ 4 ∧ 4 ≤ 4 ∧ 7 < 8) ∧ (7 ≤ 40 ∧ 40 ≤ 40) := by decide

/-- InterleavedPositions on the shape of version 5-Q: the ends of its three ranges. -/
theorem witness_interleave_ranges :
    (let c := lookupCfg 3 5
     1 ≤ c.nb1 + c.nb2 ∧ 59 < c.d * (c.nb1 + c.nb2) ∧ (c.d * (c.nb1 + c.nb2) ≤ 60 ∧ 61 < dataCodewords c) ∧
     (dataCodewords c ≤ 62 ∧ 133 < totalCodewords c)) := by decide +kernel

/-- PackerFollowsThePath: the first cell of the path of version 1 and a reserved cell. -/
theorem witness_path :
    (path (layout 1).excl 21)[0]? = some (20, 20) ∧ (path (layout 1).excl 21)[207]? = some (0, 12) ∧
    isReserved (layout 1).excl (8, 8) = true := by decide +kernel

/-- A machine whose last byte of MATRIX was written. -/
def withLastModule : State := { State.reset with mem := [(0x4F4C, 0x01)] }

/-- BufferReadsReturnTheirBytes: the last word of the MATRIX storage, whose upper three bytes are no storage; its module 31328; and a
step of the host after which the first byte of INBUF is still unwritten. -/
theorem witness_buffer_reads :
    withLastModule.pend = none ∧ accessLegal 0x4F4C .w4 = true ∧ isStorage 0x4F4C = true ∧ Memory.get? withLastModule.mem 0x4F4C = some 1 ∧
    withLastModule.matrixModule? 31328 = some true ∧ 31328 < 8 * 3917 ∧
    withLastModule.turn ≠ .platform ∧ (∃ t, step withLastModule = .next t ∧ Memory.get? t.mem 0x1000 = none) :=
  ⟨rfl, by decide, by decide, by decide, by decide, by decide, by decide, ⟨_, rfl, by decide⟩⟩

/-- 95 section 7 and 20_memory.md R061: bytes 3917 to 3919 of the MATRIX region read 0 beside byte 3916. -/
theorem test_matrix_top : withLastModule.readValue 0x4F4C .w4 = 1 ∧ withLastModule.readValue 0x4FFF .w1 = 0 := by decide

/-- 70_reset_and_hazards.md R201: two reads of an unwritten byte agree, and a reset draws anew. -/
theorem test_unwritten_byte_holds :
    State.reset.drawn.memByte 0x1000 = State.reset.memByte 0x1000 ∧
    State.reset.platformReset.memByte 0x1000 = Config.resetByte 1 0x1000 := ⟨rfl, rfl⟩

/-- LayoutDrawsTheStructuralPatterns and PathHoldsTheWholeStream: a centre of version 7, a dark and a light reserved cell, and the last
cell of the path of version 1. -/
theorem witness_patterns :
    (22, 38) ∈ listedCentres 7 ∧ structuralDark 7 (44, 0) = true ∧ structuralDark 7 (9, 6) = false ∧ structuralReserved 7 (9, 6) = true ∧
    (0, 12) ∈ path (layout 1).excl 21 ∧ remainderCells 2 = 7 ∧ (1 ≤ 40 ∧ 40 ≤ 40) := by decide +kernel

/-- MaskInvertsExactlyItsFreeCells, SearchKeepsTheEarliestMinimum and ScoreIsTheSumOfItsTermsAndNeverWraps. -/
theorem witness_mask : (20 < 21 ∧ 176 < 177) ∧ [9, 7, 7, 8, 9, 9, 9, 9].length = 8 ∧ bestMask none [9, 7, 7, 8, 9, 9, 9, 9] = 1 ∧
    (21 ≤ 177 ∧ 177 ≤ 177) ∧ (runs [true, true, false])[1]? = some 2 := by decide

/-- A GENERATE whose checks pass answers its symbol. -/
theorem exec_generate_ok {s : State} (h : levelLegal s.lvl = true) (h2 : s.overrideIllegal = false)
    (h3 : s.selection.fits = true ∨ s.ctrl.strict = false) : exec .generate s = .next s.generated.complete := by
  simp only [exec, execGenerate, runGenerate_ok h h2 h3, finishCommand_ok]

/-- MatrixHoldsTheSymbol: a version 7 symbol of 135 bytes at level L with an override. -/
theorem witness_structural :
    ∃ t, exec .generate (ready [] 0x174 135) = .next t ∧ levelLegal (ready [] 0x174 135).ctrl.level.toNat = true ∧
      ((ready [] 0x174 135).ctrl.movrEn = true ∧ (ready [] 0x174 135).ctrl.movr.toNat ≤ 7) ∧
      (selectVersion (ready [] 0x174 135).len.toNat (ready [] 0x174 135).ctrl.level.toNat).fits = true ∧
      t.res.version.toNat = 7 :=
  ⟨_, exec_generate_ok (by decide) (by decide) (.inl (by decide +kernel)), by decide, by decide, by decide +kernel, by decide +kernel⟩

/-- MatrixHoldsTheSymbol: a reserved cell of version 7 outside the format and version cells, and a free cell. -/
theorem witness_structural_cell :
    isReserved (layout 7).excl (44, 6) = true ∧ (∀ k, k < 15 → (44, 6) ∉ formatCopies 45 k) ∧ (44, 6) ∉ versionCells 45 ∧
    isReserved (layout 7).excl (44, 44) = false := by
  decide +kernel

/-- MaskselIsTheEarliestMinimalScore: a searching GENERATE with the default parameters. -/
theorem witness_search :
    (ready hello 0x100 5).params = Config.defaultParams ∧ (ready hello 0x100 5).ctrl.movrEn = false ∧
    (ready hello 0x100 5).status.err = 0 ∧ ∃ t, exec .generate (ready hello 0x100 5) = .next t ∧ t.status.err = 0 :=
  ⟨rfl, rfl, rfl, _, exec_generate_ok (by decide) (by decide) (.inl (by decide +kernel)), rfl⟩

/-- GenerateDependsOnlyOnItsInputs: two machines that differ in VSEL, IE and a byte beyond LEN. -/
theorem witness_same_inputs :
    (let s := ready hello 0x100 5
     let s' := withOperands (ready (hello ++ [0xFF]) 0x101 5) 9 9
     s'.params = s.params ∧ s'.ctrl.level = s.ctrl.level ∧ s'.ctrl.strict = s.ctrl.strict ∧ s'.ctrl.movrEn = s.ctrl.movrEn ∧
     s'.ctrl.movr = s.ctrl.movr ∧ s'.len = s.len ∧ s ≠ s' ∧ s.status.err = 0 ∧ s'.status.err = 0 ∧
     (∀ k, k < min s.len.toNat (capacityOf 40 (lookupCfg s.ctrl.level.toNat 40)) →
       Memory.get? s.mem (Config.inbufBase + k) = hello[k]? ∧ Memory.get? s'.mem (Config.inbufBase + k) = hello[k]?)) ∧
    (∀ k, k < 5 → hello[k]?.isSome) ∧
    (∃ t, exec .generate (ready hello 0x100 5) = .next t) ∧
    (∃ t, exec .generate (withOperands (ready (hello ++ [0xFF]) 0x101 5) 9 9) = .next t) := by
  refine ⟨?_, by decide, exec_completes _ _, exec_completes _ _⟩
  decide +kernel

end Sys2Proof.Tests
end

section
/-! PROOFS. The registers through the host's window (10_state.md R020 to R041): what each offset reads, what a write to each offset
changes, and which accesses change nothing. -/

namespace Sys2Proof.Machine

/-! ### Regions and the offsets of a register access -/

/-- The register range (20_memory.md R060). -/
theorem regionOf_eq_registers {a : Addr} : regionOf a = .registers ↔ a.toNat < 0x100 := by
  unfold regionOf; grind

/-- The range of INBUF (R060). -/
theorem regionOf_eq_inbuf {a : Addr} : regionOf a = .inbuf ↔ 0x1000 ≤ a.toNat ∧ a.toNat < 0x2000 := by
  unfold regionOf; grind

/-- An access the block takes in the register range is 32 bits wide (R064). -/
theorem width_of_legal_register {a : Addr} {n : Width} (h : a.toNat < 0x100) (hl : accessLegal a n = true) : n = .w4 := by
  simp only [accessLegal, regionOf_eq_registers.mpr h, Bool.and_eq_true, decide_eq_true_eq] at hl
  exact hl.1

/-- A 32-bit read in the register range is a read of that register (R060). -/
theorem readValue_register (s : State) {a : Addr} (h : a.toNat < 0x100) : s.readValue a .w4 = s.readReg a.toNat := by
  simp [State.readValue, regionOf_eq_registers.mpr h]

/-- A legal write in the register range is a write of that register (R060, R064). -/
theorem memWrite_register (s : State) {a : Addr} {n : Width} (v : Word) (h : a.toNat < 0x100) (hl : accessLegal a n = true) :
    s.memWrite a n v = some (s.writeReg a.toNat v) := by
  simp [State.memWrite, State.writeValue, regionOf_eq_registers.mpr h, hl]

/-! ### What a register reads -/

/-- No result register lies at or above offset 0x080 (10_state.md R023). -/
theorem reg?_eq_none (r : Results) {off : Nat} (h : 0x080 ≤ off) : r.reg? off = none := by
  unfold Results.reg?; split <;> grind

/-- SCORE[k] lies at offset 0x060 + 4·k (10_state.md R023, R041). -/
theorem reg?_score (r : Results) : ∀ k : Fin 8, r.reg? (0x060 + 4 * k.val) = some (r.score.get k)
  | 0 => rfl
  | 1 => rfl
  | 2 => rfl
  | 3 => rfl
  | 4 => rfl
  | 5 => rfl
  | 6 => rfl
  | 7 => rfl

/-- The block's other registers end at ECCLEN, offset 0x018 (R023). -/
theorem ownReg_eq_zero (s : State) {off : Nat} (h : 0x01C ≤ off) : s.ownReg off = 0 := by
  unfold State.ownReg; split <;> grind

/-- A reserved offset reads 0 (20_memory.md R064). -/
theorem readReg_reserved (s : State) {off : Nat} (h : off ∈ [0x01C, 0x054, 0x058, 0x05C] ∨ (0x080 ≤ off ∧ off < 0x100)) :
    s.readReg off = 0 := by
  have hnone : s.res.reg? off = none := by
    rcases h with h | h
    · simp only [List.mem_cons, List.not_mem_nil, or_false] at h
      rcases h with rfl | rfl | rfl | rfl <;> rfl
    · exact reg?_eq_none _ h.1
  have hown : s.ownReg off = 0 := ownReg_eq_zero s (by simp only [List.mem_cons, List.not_mem_nil, or_false] at h; omega)
  simp [State.readReg, hnone, hown]

/-- While BUSY = 0 a result register reads its content (R072). -/
theorem readReg_result {s : State} {off : Nat} {w : Word} (hp : s.pend = none) (h : s.res.reg? off = some w) :
    s.readReg off = w := by
  simp [State.readReg, h, State.busy, hp]

/-! ### The fields of CTRL and STATUS in their words -/

/-- CTRL bit by bit, every bit outside its fields 0 (10_state.md R023). -/
theorem Ctrl.getLsbD_word (c : Ctrl) (i : Nat) :
    c.word.getLsbD i =
      if i = 0 then c.ie else if i = 1 then c.strict else if i = 2 then c.movrEn else if i = 3 then false
      else if i < 8 then c.movr.getLsbD (i - 4) else c.level.getLsbD (i - 8) := by
  show BitVec.getLsbD (0#21 ++ c.level ++ c.movr ++ 0#1 ++ BitVec.ofBool c.movrEn ++ BitVec.ofBool c.strict ++
    BitVec.ofBool c.ie) i = _
  simp only [BitVec.getLsbD_append, BitVec.getLsbD_ofBool, BitVec.getLsbD_zero]
  rcases i with _ | _ | _ | _ | i
  iterate 4 rfl
  simp only [Nat.add_sub_cancel, Nat.add_eq_zero_iff, Nat.add_assoc, Nat.reduceAdd]
  grind

/-- STATUS bit by bit, BUSY a view of PEND, every bit outside its fields 0 (R023, R025). -/
theorem State.getLsbD_statusWord (s : State) (i : Nat) :
    s.statusWord.getLsbD i =
      if i = 0 then s.pend.isSome else if i = 1 then s.status.done else if i = 2 then s.status.overrun
      else if i = 3 then s.status.scoreValid else if i = 4 then s.status.truncated else if i < 8 then false
      else if i < 12 then s.status.err.getLsbD (i - 8) else if i < 16 then false else s.status.errInfo.getLsbD (i - 16) := by
  show BitVec.getLsbD (0#8 ++ s.status.errInfo ++ 0#4 ++ s.status.err ++ 0#3 ++ BitVec.ofBool s.status.truncated ++
    BitVec.ofBool s.status.scoreValid ++ BitVec.ofBool s.status.overrun ++ BitVec.ofBool s.status.done ++
    BitVec.ofBool s.busy) i = _
  simp only [BitVec.getLsbD_append, BitVec.getLsbD_ofBool, BitVec.getLsbD_zero, State.busy]
  rcases i with _ | _ | _ | _ | _ | i
  iterate 5 rfl
  grind

/-- A field of a word, told by its bits. -/
theorem extractLsb'_eq_of_bits {w : Word} {a n : Nat} {x : BitVec n} (h : ∀ i < n, w.getLsbD (a + i) = x.getLsbD i) :
    w.extractLsb' a n = x := by
  apply BitVec.eq_of_getLsbD_eq
  intro i hi
  simp [hi, h i hi]

/-- CTRL reads back the defined bits of what was written, and 0 in the reserved ones (R022, R023). -/
theorem ctrlWord_ofWord (v : Word) : (Ctrl.ofWord v).word = v &&& 0x000007F7#32 := by
  apply BitVec.eq_of_getLsbD_eq
  intro i hi
  have hmask : ∀ j < 32, (0x000007F7#32).getLsbD j = (decide (j < 3) || (decide (4 ≤ j) && decide (j < 11))) := by decide
  simp only [Ctrl.getLsbD_word, Ctrl.ofWord, BitVec.getLsbD_and, BitVec.getLsbD_extractLsb', hmask i hi]
  grind

/-- The low m bits of a word, zero-extended, are the word under the mask of those bits. -/
theorem setWidth_extractLsb' (v : Word) (m : Nat) :
    (v.extractLsb' 0 m).setWidth 32 = v &&& BitVec.ofNat 32 (2 ^ m - 1) := by
  apply BitVec.eq_of_getLsbD_eq
  intro i hi
  simp only [BitVec.getLsbD_setWidth, BitVec.getLsbD_extractLsb', BitVec.getLsbD_and, BitVec.getLsbD_ofNat,
    Nat.testBit_two_pow_sub_one, Nat.zero_add, hi, decide_true, Bool.true_and, Bool.and_comm]

/-- Settles O36, field by field from the bits of the two flag words and the map of the result registers. -/
theorem registersReadAsTheMapSays : Obligations.RegistersReadAsTheMapSays := by
  unfold Obligations.RegistersReadAsTheMapSays
  refine ⟨fun s => rfl, fun s off h => readReg_reserved s h, fun s => ?_, fun s => ?_, fun s hp => ?_,
    fun s a h => readValue_register s h⟩
  · have hr : s.readReg 0x00C = s.statusWord := rfl
    rw [hr]
    have hbit := s.getLsbD_statusWord
    refine ⟨hbit 0, hbit 1, hbit 2, hbit 3, hbit 4, ?_, ?_, ?_, ?_, ?_⟩ <;>
      (refine extractLsb'_eq_of_bits fun i hi => ?_; rw [hbit]; grind)
  · have hr : s.readReg 0x004 = s.ctrl.word := rfl
    rw [hr]
    have hbit := s.ctrl.getLsbD_word
    refine ⟨hbit 0, hbit 1, hbit 2, hbit 3, ?_, ?_, ?_, rfl, rfl, rfl⟩ <;>
      (refine extractLsb'_eq_of_bits fun i hi => ?_; rw [hbit]; grind)
  · refine ⟨?_, ?_, ?_, ?_, ?_, ?_, ?_, ?_, ?_, ?_, ?_, ?_, ?_, fun k => ?_⟩ <;> refine readReg_result hp ?_
    iterate 13 rfl
    exact reg?_score s.res k

/-! ### What a write to a register changes -/

/-- A host write to CTRL, CMD, LEN, VSEL or ECCLEN while BUSY = 0 takes effect (R022, R205). -/
theorem unlessBusy_of_none {s : State} (h : s.pend = none) (t : State) : s.unlessBusy t = t :=
  State.unlessBusy_of_idle (by simp [State.busy, h]) t

/-- Settles O35: each of the four write rules keeps its own field, and the field reads back under its mask. -/
theorem readWriteRegistersKeepTheirFields : Obligations.ReadWriteRegistersKeepTheirFields := by
  unfold Obligations.ReadWriteRegistersKeepTheirFields
  refine ⟨fun s v hp => ?_, fun s => rfl⟩
  have hw : ∀ {a : Addr}, a.toNat < 0x100 → accessLegal a .w4 = true → s.memWrite a .w4 v = some (s.writeReg a.toNat v) :=
    memWrite_register s v
  have heff := unlessBusy_of_none hp
  exact ⟨⟨_, (hw (by decide) (by decide)).trans (congrArg some (heff _)), rfl, ctrlWord_ofWord v⟩,
    ⟨_, (hw (by decide) (by decide)).trans (congrArg some (heff _)), rfl, setWidth_extractLsb' v 16⟩,
    ⟨_, (hw (by decide) (by decide)).trans (congrArg some (heff _)), rfl, setWidth_extractLsb' v 6⟩,
    ⟨_, (hw (by decide) (by decide)).trans (congrArg some (heff _)), rfl, setWidth_extractLsb' v 8⟩⟩

/-- The host writes DONE and OVERRUN of STATUS and nothing else of the machine (R037). -/
theorem writeStatus_eq (s : State) (v : Word) :
    s.writeStatus v = { s with status := { s.status with
      done := if v.getLsbD 1 then false else s.status.done
      overrun := if v.getLsbD 2 then false else s.status.overrun } } := by
  unfold State.writeStatus
  cases v.getLsbD 1 <;> cases v.getLsbD 2 <;> simp

/-- Settles O31: STATUS is the register at offset 0x00C, and its write rule is `writeStatus`. -/
theorem statusIsWriteOneToClear : Obligations.StatusIsWriteOneToClear := by
  unfold Obligations.StatusIsWriteOneToClear
  intro s v
  rw [memWrite_register s v (by decide) (by decide), ← writeStatus_eq]
  rfl

/-- A write to STATUS is idempotent (R037, R070). -/
theorem writeStatus_idem (s : State) (v : Word) : (s.writeStatus v).writeStatus v = s.writeStatus v := by
  simp [State.writeStatus]

/-! ### Writes that change nothing, and writes that are idempotent -/

/-- A write to ID, to a read-only register or to a reserved offset changes nothing (R064, R070). -/
theorem writeReg_ignored (s : State) {off : Nat} (v : Word) (h : off ∉ [0x004, 0x008, 0x00C, 0x010, 0x014, 0x018]) :
    s.writeReg off v = s := by
  unfold State.writeReg; split <;> simp_all

/-- So does a legal write to such an offset, to RSOUT or to MATRIX (R070). -/
theorem memWrite_ignored (s : State) {a : Addr} {n : Width} (v : Word) (hl : accessLegal a n = true)
    (h : (a.toNat < 0x100 ∧ a.toNat ∉ [0x004, 0x008, 0x00C, 0x010, 0x014, 0x018]) ∨ 0x2000 ≤ a.toNat) :
    s.memWrite a n v = some s := by
  rcases h with ⟨hlt, hoff⟩ | hge
  · rw [memWrite_register s v hlt hl, writeReg_ignored s v hoff]
  · have hreg : regionOf a ≠ .registers := fun h => by have := regionOf_eq_registers.mp h; omega
    have hin : regionOf a ≠ .inbuf := fun h => by have := regionOf_eq_inbuf.mp h; omega
    unfold State.memWrite State.writeValue
    rw [if_pos hl]
    cases hr : regionOf a <;> simp_all

/-- A write that BUSY = 1 drops is idempotent where its effect is and where its effect leaves BUSY alone. -/
theorem unlessBusy_idem (s : State) (f : State → State) (hbusy : ∀ u, (f u).busy = u.busy) (hf : ∀ u, f (f u) = f u) :
    (s.unlessBusy (f s)).unlessBusy (f (s.unlessBusy (f s))) = s.unlessBusy (f s) := by
  cases hb : s.busy with
  | true =>
    rw [State.unlessBusy_of_busy hb, State.unlessBusy_of_busy (by simpa using hb)]
    rfl
  | false =>
    rw [State.unlessBusy_of_idle hb, State.unlessBusy_of_idle ((hbusy s).trans hb), hf]

/-- A write to any register but CMD is idempotent (R070). -/
theorem writeReg_idem (s : State) {off : Nat} (v : Word) (h : off ≠ 0x008) :
    (s.writeReg off v).writeReg off v = s.writeReg off v := by
  by_cases hoff : off ∈ [0x004, 0x008, 0x00C, 0x010, 0x014, 0x018]
  · simp only [List.mem_cons, List.not_mem_nil, or_false] at hoff
    rcases hoff with rfl | rfl | rfl | rfl | rfl | rfl
    · exact unlessBusy_idem s (fun u => { u with ctrl := Ctrl.ofWord v }) (fun _ => rfl) (fun _ => rfl)
    · exact absurd rfl h
    · exact writeStatus_idem s v
    · exact unlessBusy_idem s (fun u => { u with len := v.extractLsb' 0 16 }) (fun _ => rfl) (fun _ => rfl)
    · exact unlessBusy_idem s (fun u => { u with vsel := v.extractLsb' 0 6 }) (fun _ => rfl) (fun _ => rfl)
    · exact unlessBusy_idem s (fun u => { u with eccLen := v.extractLsb' 0 8 }) (fun _ => rfl) (fun _ => rfl)
  · rw [writeReg_ignored s v hoff, writeReg_ignored s v hoff]

/-- The cells of a run of bytes all lie in the run, so none is kept by a test that fails there. -/
theorem Memory.filter_cells {a : Nat} {bs : List Byte} {p : Host.Cell → Bool}
    (h : ∀ c : Host.Cell, a ≤ c.1 → c.1 < a + bs.length → p c = false) : (Memory.cells a bs).filter p = [] :=
  List.filter_eq_nil_iff.mpr fun c hc => by
    obtain ⟨hlo, hhi⟩ := Memory.mem_cells hc
    simp [h c hlo hhi]

/-- Writing the same run of bytes again changes nothing. -/
theorem Memory.write_idem (m : Memory) (a : Nat) (bs : List Byte) :
    Memory.write (Memory.write m a bs) a bs = Memory.write m a bs := by
  have below : (Memory.cells a bs).filter (fun c => decide (c.1 < a)) = [] :=
    Memory.filter_cells fun c hlo _ => decide_eq_false (Nat.not_lt.mpr hlo)
  have above : (Memory.cells a bs).filter (fun c => decide (a + bs.length ≤ c.1)) = [] :=
    Memory.filter_cells fun c _ hhi => decide_eq_false (Nat.not_le.mpr hhi)
  have apart : ∀ c : Host.Cell, c.1 < a → a + bs.length ≤ c.1 → False := fun c hlt hle => by omega
  have low : (m.filter fun c => decide (a + bs.length ≤ c.1)).filter (fun c => decide (c.1 < a)) = [] :=
    List.filter_eq_nil_iff.mpr fun c hc hlt =>
      apart c (of_decide_eq_true hlt) (of_decide_eq_true (List.mem_filter.mp hc).2)
  have high : (m.filter fun c => decide (c.1 < a)).filter (fun c => decide (a + bs.length ≤ c.1)) = [] :=
    List.filter_eq_nil_iff.mpr fun c hc hle =>
      apart c (of_decide_eq_true (List.mem_filter.mp hc).2) (of_decide_eq_true hle)
  have again : ∀ p : Host.Cell → Bool, (m.filter p).filter p = m.filter p := fun p => by
    simp only [List.filter_filter, Bool.and_self]
  simp only [Memory.write, List.filter_append, below, above, low, high, again, List.nil_append, List.append_nil]

/-- A legal write to any address but CMD is idempotent (R070). -/
theorem memWrite_idem {s t : State} {a : Addr} {n : Width} {v : Word} (ha : a.toNat ≠ 0x008)
    (h : s.memWrite a n v = some t) : t.memWrite a n v = some t := by
  have hl := (memWrite_some h).1
  simp only [State.memWrite, hl, if_true, Option.some.injEq] at h ⊢
  subst h
  unfold State.writeValue
  cases regionOf a with
  | registers => exact writeReg_idem s v ha
  | inbuf =>
    exact unlessBusy_idem s (fun u => { u with mem := Memory.write u.mem a.toNat (leBytes v n.bytes) }) (fun _ => rfl)
      (fun u => by simp only [Memory.write_idem])
  | rsout => rfl
  | matrix => rfl
  | unmapped => rfl

/-- Settles O32. -/
theorem effectsOfHostAccesses : Obligations.EffectsOfHostAccesses := by
  unfold Obligations.EffectsOfHostAccesses
  refine fun s t a n v => ⟨fun hl h => memWrite_ignored s v hl h, fun ha h => ?_, fun ha h => memWrite_idem ha h,
    fun x h => (memRead_some h).2.2⟩
  have hlt : a.toNat < 0x100 := by omega
  rw [memWrite_register s v hlt (memWrite_some h).1, ha, Option.some.injEq] at h
  subst h
  exact ⟨rfl, rfl, rfl, rfl, rfl⟩

end Sys2Proof.Machine
end

section
/-! PROOFS. Which steps touch what (10_state.md R034, R040, R043, R048): the frame of each agent's step for the results, OVERRUN, the
parameters and the host's program, and that no command reads a flag. -/

namespace Sys2Proof.Machine

/-! ### The HOST step -/

/-- The addresses of INBUF (20_memory.md R061). -/
theorem isInbuf_iff {a : Nat} : isInbuf a = true ↔ 0x1000 ≤ a ∧ a < 0x2000 := by
  simp only [isInbuf, Bool.and_eq_true, decide_eq_true_eq]; rfl

/-- The addresses of RSOUT (R061). -/
theorem isRsout_iff {a : Nat} : isRsout a = true ↔ 0x2000 ≤ a ∧ a < 0x2020 := by
  simp only [isRsout, Bool.and_eq_true, decide_eq_true_eq]; rfl

/-- The addresses of MATRIX (R061). -/
theorem isMatrix_iff {a : Nat} : isMatrix a = true ↔ 0x4000 ≤ a ∧ a < 0x4F4D := by
  simp only [isMatrix, Bool.and_eq_true, decide_eq_true_eq]; rfl

/-- What a MemWrite leaves alone: the results and their flags, every buffer byte outside INBUF, the parameters and the host (20_memory.md
R070, R205). -/
theorem memWrite_frame {s t : State} {a : Addr} {n : Width} {v : Word} (h : s.memWrite a n v = some t) :
    t.res = s.res ∧ t.status.scoreValid = s.status.scoreValid ∧ t.status.truncated = s.status.truncated ∧
    (∀ b, ¬ isInbuf b = true → Memory.get? t.mem b = Memory.get? s.mem b) ∧ t.params = s.params ∧ t.host = s.host := by
  obtain ⟨hl, rfl | ⟨-, rfl⟩ | ⟨-, rfl⟩ | ⟨-, ⟨-, rfl⟩ | ⟨-, rfl⟩ | ⟨-, rfl⟩ | ⟨-, rfl⟩ | ⟨-, rfl⟩ | ⟨hr, rfl⟩⟩⟩ := memWrite_some h
  case inr.inr.inr.inr.inr.inr.inr.inr =>
    refine ⟨rfl, rfl, rfl, fun b hb => Memory.get?_write_outside ?_, rfl, rfl⟩
    have hin := inbuf_access hr hl
    rw [isInbuf_iff] at hb
    rw [leBytes_length]
    omega
  all_goals exact ⟨rfl, rfl, rfl, fun _ _ => rfl, rfl, rfl⟩

/-- A branch goes to another place of the same program (30_encoding.md R092). -/
theorem hostBranch_next {s t : State} {taken : Bool} {l : Label} (h : hostBranch s taken l = .next t) :
    ∃ k, t = s.withHost { s.host with pos := k } := by
  unfold hostBranch at h
  split at h
  · split at h
    · cases h; exact ⟨_, rfl⟩
    · cases h
  · cases h; exact ⟨_, rfl⟩

/-- What a HOST step does to the block: nothing, one draw of a read, or one MemWrite of the statement the host is at; and to the host: its
registers and its place change, never its program (R092). -/
theorem hostStep_next {s t : State} (h : hostStep s = .next t) :
    ∃ (u : State) (g : HostAgent), t = u.withHost g ∧ g.prog = s.host.prog ∧
      (u = s ∨ u = s.drawn ∨
        ∃ n a v, s.host.stmt? = some (.wr n a v) ∧ s.memWrite a n (s.host.writeSrc v) = some u) := by
  unfold hostStep at h
  split at h
  · cases h; exact ⟨s, s.host, rfl, rfl, .inl rfl⟩
  · rename_i st hst
    cases st with
    | wr n a v =>
      simp only [execHost, hostWrite] at h
      split at h
      · rename_i u hu
        cases h
        obtain ⟨-, -, -, -, -, hhost⟩ := memWrite_frame hu
        exact ⟨u, u.host.advance, rfl, by rw [← hhost]; rfl, .inr (.inr ⟨n, a, v, hst, hu⟩)⟩
      · cases h
    | rd n r a =>
      simp only [execHost, hostRead] at h
      split at h
      · rename_i v u hu
        cases h
        obtain ⟨-, -, rfl⟩ := memRead_some hu
        exact ⟨s.drawn, _, rfl, rfl, .inr (.inl rfl)⟩
      · cases h
    | li | addi | andi => cases h; exact ⟨s, _, rfl, rfl, .inl rfl⟩
    | beqz | bnez | bne | jmp => obtain ⟨k, rfl⟩ := hostBranch_next h; exact ⟨s, _, rfl, rfl, .inl rfl⟩
    | halt => cases h; exact ⟨s, s.host, rfl, rfl, .inl rfl⟩

/-- What a HOST step leaves alone (10_state.md R040, R043, 20_memory.md R070). -/
theorem hostStep_frame {s t : State} (h : hostStep s = .next t) :
    t.res = s.res ∧ t.status.scoreValid = s.status.scoreValid ∧ t.status.truncated = s.status.truncated ∧
    (∀ b, ¬ isInbuf b = true → Memory.get? t.mem b = Memory.get? s.mem b) ∧ t.params = s.params ∧
    t.host.prog = s.host.prog := by
  obtain ⟨u, g, rfl, hg, rfl | rfl | ⟨n, a, v, -, hu⟩⟩ := hostStep_next h
  · exact ⟨rfl, rfl, rfl, fun _ _ => rfl, rfl, hg⟩
  · exact ⟨rfl, rfl, rfl, fun _ _ => rfl, rfl, hg⟩
  · obtain ⟨hres, hvalid, htrunc, hmem, hparams, -⟩ := memWrite_frame hu
    exact ⟨hres, hvalid, htrunc, hmem, hparams, hg⟩

/-- On the host's turn a step that goes on is the HOST step. -/
theorem hostStep_of_turn {s t : State} (hturn : s.turn = .host) (h : step s = .next t) : hostStep s.tick = .next t := by
  simpa only [step, agentStep, hturn] using h

/-- RSOUT and MATRIX lie outside INBUF (20_memory.md R061). -/
theorem not_isInbuf_of_isRsout_or_isMatrix {a : Nat} (h : isRsout a = true ∨ isMatrix a = true) : ¬ isInbuf a = true := by
  rw [isRsout_iff, isMatrix_iff] at h
  rw [isInbuf_iff]
  omega

/-- Settles O18 by the frame of the HOST step. -/
theorem hostStepsNeverWriteResults : Obligations.HostStepsNeverWriteResults := by
  unfold Obligations.HostStepsNeverWriteResults
  intro s t hturn h
  obtain ⟨hres, hvalid, htrunc, hmem, -, -⟩ := hostStep_frame (hostStep_of_turn hturn h)
  exact ⟨hres, hvalid, htrunc, fun a ha => hmem a (not_isInbuf_of_isRsout_or_isMatrix ha)⟩

/-! ### The ENGINE step -/

/-- The ENGINE step of a word reports IllegalCommand or is the step of the command it decodes to (30_encoding.md R087, R089). -/
theorem engineStep_next {w : Word} {s t : State} (h : engineStep w s = .next t) :
    (∃ e, decode w = .error e ∧ t = s.afterError 4 e.info) ∨ ∃ i, decode w = .ok i ∧ exec i s = .next t := by
  unfold engineStep at h
  split at h
  · rename_i i hd
    exact .inr ⟨i, hd, h⟩
  · rename_i e hd
    exact .inl ⟨e, hd, (Host.Outcome.next.inj h).symm⟩

/-- What every ENGINE step leaves alone: OVERRUN, the parameters and the host (60_exceptions.md R183). -/
theorem engineStep_frame {w : Word} {s t : State} (h : engineStep w s = .next t) :
    t.status.overrun = s.status.overrun ∧ t.params = s.params ∧ t.host = s.host := by
  rcases engineStep_next h with ⟨e, -, rfl⟩ | ⟨i, -, hi⟩
  · exact ⟨rfl, rfl, rfl⟩
  · rcases exec_next hi with ⟨e, -, rfl⟩ | ⟨-, rfl⟩ | ⟨-, -, -, -, rfl⟩ | ⟨-, -, -, -, rfl⟩ | ⟨-, -, -, rfl⟩ | ⟨-, -, -, -, rfl⟩ <;>
      exact ⟨rfl, rfl, rfl⟩

/-- Settles O19, agent by agent. -/
theorem noStepChangesParametersOrProgram : Obligations.NoStepChangesParametersOrProgram := by
  unfold Obligations.NoStepChangesParametersOrProgram
  intro s t h
  rcases step_next h with ⟨w, -, -, he⟩ | ⟨-, rfl⟩ | ⟨-, hh⟩
  · obtain ⟨-, hparams, hhost⟩ := engineStep_frame he
    exact ⟨hparams, congrArg HostAgent.prog hhost⟩
  · exact ⟨rfl, rfl⟩
  · obtain ⟨-, -, -, -, hparams, hprog⟩ := hostStep_frame hh
    exact ⟨hparams, hprog⟩

/-! ### OVERRUN -/

/-- Where an access the block takes lies (20_memory.md R060, R062). -/
theorem legal_range {a : Addr} {n : Width} (hl : accessLegal a n = true) :
    a.toNat < 0x100 ∨ (0x1000 ≤ a.toNat ∧ a.toNat < 0x2000) ∨ 0x2000 ≤ a.toNat := by
  refine Decidable.byContradiction fun hout => ?_
  have hr : regionOf a = .unmapped := by unfold regionOf; grind
  simp [accessLegal, hr] at hl

/-- A MemWrite that sets OVERRUN is one that BUSY = 1 drops, to an operand register, to CMD or to INBUF (R034, R205). -/
theorem memWrite_sets_overrun {s t : State} {a : Addr} {n : Width} {v : Word} (h : s.memWrite a n v = some t)
    (hs : s.status.overrun = false) (ht : t.status.overrun = true) :
    s.busy = true ∧ accessLegal a n = true ∧
      (a.toNat ∈ [0x004, 0x008, 0x010, 0x014, 0x018] ∨ (0x1000 ≤ a.toNat ∧ a.toNat < 0x2000)) := by
  have hne : t ≠ s := by rintro rfl; simp [hs] at ht
  obtain ⟨hl, heq | ⟨-, rfl⟩ | ⟨hb, rfl⟩ | ⟨-, ⟨-, rfl⟩ | ⟨-, rfl⟩ | ⟨-, rfl⟩ | ⟨-, rfl⟩ | ⟨-, rfl⟩ | ⟨-, rfl⟩⟩⟩ := memWrite_some h
  case inl => exact absurd heq hne
  case inr.inr.inl =>
    refine ⟨hb, hl, ?_⟩
    refine Decidable.byContradiction fun hout => ?_
    have hstatus : a.toNat ≠ 0x00C := by
      intro ha
      rw [memWrite_register s v (by omega) hl, ha, Option.some.injEq] at h
      have hw : s.writeStatus v = s.dropWrite := h
      simp [← hw, hs] at ht
    refine hne (Option.some.inj (h.symm.trans (memWrite_ignored s v hl ?_)))
    have := legal_range hl
    simp only [List.mem_cons, List.not_mem_nil, or_false] at hout ⊢
    omega
  all_goals simp [hs] at ht

/-- A MemWrite that clears OVERRUN is a write to STATUS with bit 2 = 1 (R037). -/
theorem memWrite_clears_overrun {s t : State} {a : Addr} {n : Width} {v : Word} (h : s.memWrite a n v = some t)
    (hs : s.status.overrun = true) (ht : t.status.overrun = false) : a = 0x00C ∧ n = .w4 ∧ v.getLsbD 2 = true := by
  obtain ⟨hl, rfl | ⟨ha, rfl⟩ | ⟨-, rfl⟩ | ⟨-, ⟨-, rfl⟩ | ⟨-, rfl⟩ | ⟨-, rfl⟩ | ⟨-, rfl⟩ | ⟨-, rfl⟩ | ⟨-, rfl⟩⟩⟩ := memWrite_some h
  case inr.inl =>
    exact ⟨BitVec.eq_of_toNat_eq ha, width_of_legal_register (by omega) hl, by simpa [hs] using ht⟩
  all_goals simp [hs] at ht

/-- Settles O39: only a MemWrite of the host moves OVERRUN, and a reset clears it. -/
theorem overrunOnlyByADroppedWrite : Obligations.OverrunOnlyByADroppedWrite := by
  unfold Obligations.OverrunOnlyByADroppedWrite
  intro s t h
  rcases step_next h with ⟨w, -, -, he⟩ | ⟨hturn, rfl⟩ | ⟨hturn, hh⟩
  · obtain ⟨hover, -, -⟩ := engineStep_frame he
    exact ⟨fun hs ht => by simp [hover, hs] at ht, fun hs ht => by simp [hover, hs] at ht⟩
  · exact ⟨fun _ ht => by simp [Status.zero] at ht, fun _ _ => .inl hturn⟩
  · obtain ⟨u, g, rfl, -, rfl | rfl | ⟨n, a, v, hst, hu⟩⟩ := hostStep_next hh
    · exact ⟨fun hs ht => by simp [hs] at ht, fun hs ht => by simp [hs] at ht⟩
    · exact ⟨fun hs ht => by simp [hs] at ht, fun hs ht => by simp [hs] at ht⟩
    · refine ⟨fun hs ht => ?_, fun hs ht => .inr ⟨hturn, v, ?_⟩⟩
      · obtain ⟨hb, hl, ha⟩ := memWrite_sets_overrun hu hs ht
        exact ⟨hturn, by simpa [State.busy, Option.isSome_iff_ne_none] using hb, n, a, v, hst, hl, ha⟩
      · obtain ⟨rfl, rfl, hbit⟩ := memWrite_clears_overrun hu hs ht
        exact ⟨hst, hbit⟩

/-! ### No command reads a flag -/

/-- The rule of a command, before the ENGINE step is completed (40_commands.md R102 to R106). -/
def commandRule : Instr → State → Except EngineError State
  | .nop => .ok
  | .generate => runGenerate
  | .lookup => runLookup
  | .select => runSelect
  | .rsenc => runRsenc

/-- Every command is its rule, then the end of the ENGINE step (R101). -/
theorem exec_eq_finishCommand (i : Instr) (s : State) : exec i s = finishCommand s (commandRule i s) := by
  cases i <;> rfl

/-- STATUS after a command that succeeds, from the STATUS `f` before it and the result state `t`: a searching or overridden GENERATE
writes SCORE_VALID and TRUNCATED, SELECT writes TRUNCATED (10_state.md R035, R036, R048). -/
def flagsWritten (i : Instr) (f : Status) (t : State) : Status :=
  { f with
    scoreValid := if i = .generate then t.status.scoreValid else f.scoreValid
    truncated := if i = .generate ∨ i = .select then t.status.truncated else f.truncated }

/-- A command rule does not read STATUS: with another one it ends the same way, but for the flags it leaves (R048). -/
theorem commandRule_withStatus (i : Instr) (s : State) (f : Status) :
    commandRule i { s with status := f } = (commandRule i s).map fun t => { t with status := flagsWritten i f t } := by
  cases i with
  | nop => rfl
  | generate => simp only [commandRule, runGenerate, apply_ite (Except.map _)]; rfl
  | lookup => simp only [commandRule, runLookup, apply_ite (Except.map _)]; rfl
  | select => simp only [commandRule, runSelect, apply_ite (Except.map _)]; rfl
  | rsenc => simp only [commandRule, runRsenc, apply_ite (Except.map _)]; rfl

/-- A rule that succeeds leaves STATUS as it was but for the flags it writes. -/
theorem status_of_commandRule_ok {i : Instr} {s t : State} (h : commandRule i s = .ok t) :
    t.status = flagsWritten i s.status t := by
  have hs := commandRule_withStatus i s s.status
  rw [show { s with status := s.status } = s from rfl, h] at hs
  exact congrArg State.status (Except.ok.inj hs)

/-- Every error code is one of 1 to 4 (60_exceptions.md R181). -/
theorem EngineError.code_ne_zero (e : EngineError) : e.code ≠ 0 := by
  cases e <;> simp [EngineError.code]

/-- Settles O14: the rule of a command does not read STATUS, and the end of the step sets DONE or writes the error report. -/
theorem commandsReadNoFlag : Obligations.CommandsReadNoFlag := by
  unfold Obligations.CommandsReadNoFlag
  intro i s f
  have hf := commandRule_withStatus i s f
  simp only [exec_eq_finishCommand, hf]
  cases h : commandRule i s with
  | error e => exact ⟨_, _, rfl, rfl, rfl, .inl ⟨e.code, e.info, e.code_ne_zero, rfl, rfl⟩⟩
  | ok u =>
    have hu := status_of_commandRule_ok h
    refine ⟨_, _, rfl, rfl, rfl, .inr ⟨rfl, rfl, ?_, rfl, ?_, rfl, ?_, rfl, ?_, ?_⟩⟩
    · rw [State.complete_status, hu]; rfl
    · rw [State.complete_status, hu]; rfl
    · rw [State.complete_status, hu]; rfl
    · have hvalid := congrArg Status.scoreValid hu
      split <;> rename_i hi
      · simp [flagsWritten, hi]
      · exact ⟨by simpa [flagsWritten, hi] using hvalid, by simp [flagsWritten, hi]⟩
    · have htrunc := congrArg Status.truncated hu
      split <;> rename_i hi
      · simp [flagsWritten, hi]
      · exact ⟨by simpa [flagsWritten, hi] using htrunc, by simp [flagsWritten, hi]⟩

end Sys2Proof.Machine
end

section
/-! PROOFS. The badness score (10_state.md R041, 47_mask_finish.md R157 to R163): the runs of a line, the score as the sum of its terms, and
the bound that keeps SCORE[k] from wrapping. -/

namespace Sys2Proof.Machine

/-! ### The runs of a line (R159) -/

/-- The runs add up to the length of the line. -/
theorem runsFrom_sum (b : Bool) (len : Nat) (cs : List Bool) : (runsFrom b len cs).sum = len + cs.length := by
  induction cs generalizing b len with
  | nil => simp [runsFrom]
  | cons c cs ih =>
    unfold runsFrom
    split
    · rw [ih, List.length_cons]; omega
    · rw [List.sum_cons, ih, List.length_cons]; omega

/-- Inside a run that has begun, no run is empty. -/
theorem runsFrom_pos {b : Bool} {len : Nat} {cs : List Bool} (hlen : 1 ≤ len) : ∀ n ∈ runsFrom b len cs, 1 ≤ n := by
  induction cs generalizing b len with
  | nil => simpa [runsFrom] using hlen
  | cons c cs ih =>
    unfold runsFrom
    split
    · exact ih (by omega)
    · exact List.forall_mem_cons.mpr ⟨hlen, ih (Nat.le_refl 1)⟩

/-- No run but the first is empty. -/
theorem runsFrom_tail_pos (b : Bool) (len : Nat) (cs : List Bool) : ∀ n ∈ (runsFrom b len cs).tail, 1 ≤ n := by
  induction cs generalizing b len with
  | nil => simp [runsFrom]
  | cons c cs ih =>
    unfold runsFrom
    split
    · exact ih b (len + 1)
    · exact runsFrom_pos (Nat.le_refl 1)

/-- The line that runs spell, the k-th run dark where k is odd. -/
def spellRuns (k : Nat) (rs : List Nat) : List Bool :=
  (rs.zipIdx k).flatMap fun r => List.replicate r.1 (decide (r.2 % 2 = 1))

/-- The next run has the other colour. -/
theorem spellRuns_cons (k n : Nat) (rs : List Nat) :
    spellRuns k (n :: rs) = List.replicate n (decide (k % 2 = 1)) ++ spellRuns (k + 1) rs := by
  simp [spellRuns]

/-- The runs spell the line they were read from. -/
theorem spellRuns_runsFrom {k : Nat} {b : Bool} (hk : decide (k % 2 = 1) = b) (len : Nat) (cs : List Bool) :
    spellRuns k (runsFrom b len cs) = List.replicate len b ++ cs := by
  induction cs generalizing k b len with
  | nil => simp [runsFrom, spellRuns, hk]
  | cons c cs ih =>
    unfold runsFrom
    split
    · rename_i hc
      rw [ih hk, hc, List.replicate_succ', List.append_assoc, List.singleton_append]
    · rename_i hc
      have hk' : decide ((k + 1) % 2 = 1) = c := by
        have hb : c = !b := by cases b <;> cases c <;> simp_all
        rw [hb, ← hk]; grind
      rw [spellRuns_cons, ih hk', hk]
      rfl

/-- The runs of a line add up to its length. -/
theorem runs_sum (line : List Bool) : (runs line).sum = line.length :=
  (runsFrom_sum false 0 line).trans (Nat.zero_add _)

/-- Non-empty runs are no more than the modules they add up to. -/
theorem length_le_sum_of_pos {l : List Nat} (h : ∀ n ∈ l, 1 ≤ n) : l.length ≤ l.sum := by
  induction l with
  | nil => exact Nat.le_refl 0
  | cons n l ih =>
    obtain ⟨hn, hl⟩ := List.forall_mem_cons.mp h
    have := ih hl
    simp only [List.length_cons, List.sum_cons]
    omega

/-- A line has at most one run more than it has modules. -/
theorem runs_length_le (line : List Bool) : (runs line).length - 1 ≤ line.length := by
  have htail := length_le_sum_of_pos (runsFrom_tail_pos false 0 line)
  change (runs line).tail.length ≤ (runs line).tail.sum at htail
  have hsum := runs_sum line
  cases hr : runs line with
  | nil => simp
  | cons n rs => simp only [hr, List.tail_cons, List.sum_cons] at *; simp only [List.length_cons]; omega

/-! ### The terms of the score -/

/-- Counting the cells of a grid that pass a test, row by row. -/
theorem length_filter_gridCells (nx ny : Nat) (p : Cell → Bool) :
    ((gridCells nx ny).filter p).length =
      ((List.range ny).map fun y => ((List.range nx).filter fun x => p (x, y)).length).sum := by
  simp [gridCells, List.filter_flatMap, List.length_flatMap, List.filter_map, Function.comp_def]

/-- The number of cells of a grid. -/
theorem gridCells_length (nx ny : Nat) : (gridCells nx ny).length = ny * nx := by
  induction ny with
  | zero => rw [Nat.zero_mul]; rfl
  | succ ny ih =>
    unfold gridCells at ih ⊢
    rw [List.range_succ, List.flatMap_append, List.length_append, ih, Nat.succ_mul, List.flatMap_singleton, List.length_map,
      List.length_range]

/-- A test holds of no more cells than the grid has. -/
theorem length_filter_gridCells_le (nx ny : Nat) (p : Cell → Bool) : ((gridCells nx ny).filter p).length ≤ ny * nx :=
  gridCells_length nx ny ▸ List.length_filter_le p (gridCells nx ny)

/-- The block term counts the 2×2 windows of one colour (R158). -/
theorem sameWindow_eq (q : Bitmap) (w x y : Nat) :
    sameWindow q w (x, y) = decide (Bitmap.cell q w (x, y) = Bitmap.cell q w (x + 1, y) ∧
      Bitmap.cell q w (x, y) = Bitmap.cell q w (x, y + 1) ∧ Bitmap.cell q w (x, y) = Bitmap.cell q w (x + 1, y + 1)) := by
  simp [sameWindow, Bool.and_assoc, eq_comm]

/-- The run term: N1 + r − 5 for every run r of 5 or more (R160). -/
theorem runPenalty_eq (p : Config.Params) (r : List Nat) :
    runPenalty p r = ((r.filter (5 ≤ ·)).map (p.n1 + · - 5)).sum := by
  unfold runPenalty
  induction r with
  | nil => rfl
  | cons n r ih =>
    by_cases hn : 5 ≤ n
    · simp [hn, ih]; omega
    · simp [hn, ih]

/-- The test of R161, its equal runs told against the run before r[i]. -/
theorem finderLike_iff (r : List Nat) (h i : Nat) :
    finderLike r h i = true ↔
      r.getD (i - 2) 0 = r.getD (i - 1) 0 ∧ r.getD (i + 1) 0 = r.getD (i - 1) 0 ∧ r.getD (i + 2) 0 = r.getD (i - 1) 0 ∧
      r.getD i 0 = 3 * r.getD (i - 1) 0 ∧
      (r.getD (i - 3) 0 = 0 ∨ h < i + 3 ∨ 4 * r.getD i 0 ≤ 3 * r.getD (i - 3) 0 ∨
        4 * r.getD i 0 ≤ 3 * r.getD (i + 3) 0) := by
  simp only [finderLike, Bool.and_eq_true, Bool.or_eq_true, decide_eq_true_eq]
  omega

/-- The finder-like term counts the dark runs of R161, none of which is among the last two runs. -/
theorem finderPenalty_eq (p : Config.Params) (r : List Nat) :
    finderPenalty p r = p.n3 * ((List.range r.length).filter fun i =>
      i % 2 = 1 ∧ 3 ≤ i ∧ i + 2 ≤ r.length - 1 ∧
      r.getD (i - 2) 0 = r.getD (i - 1) 0 ∧ r.getD (i + 1) 0 = r.getD (i - 1) 0 ∧ r.getD (i + 2) 0 = r.getD (i - 1) 0 ∧
      r.getD i 0 = 3 * r.getD (i - 1) 0 ∧
      (r.getD (i - 3) 0 = 0 ∨ r.length - 1 < i + 3 ∨ 4 * r.getD i 0 ≤ 3 * r.getD (i - 3) 0 ∨
        4 * r.getD i 0 ≤ 3 * r.getD (i + 3) 0)).length := by
  unfold finderPenalty
  rw [Nat.mul_comm p.n3]
  cases r with
  | nil => rfl
  | cons n rs =>
    have hlast : ¬ (rs.length + 2 ≤ rs.length) := by omega
    simp only [List.length_cons, Nat.add_sub_cancel, List.range_succ, List.filter_append, List.filter_cons, List.filter_nil,
      hlast, false_and, and_false, decide_false, Bool.false_eq_true, if_false, List.append_nil]
    congr 2
    refine List.filter_congr fun i _ => ?_
    rw [Bool.eq_iff_iff]
    simp only [Bool.and_eq_true, decide_eq_true_eq, finderLike_iff]
    omega

/-- How often the area is taken from `big` (R162). -/
theorem imbalanceRounds_eq {area : Nat} (harea : 0 < area) (fuel big : Nat) (h : big ≤ (fuel + 1) * area) :
    imbalanceRounds area fuel big = (big + area - 1) / area - 1 := by
  have small : ∀ b, b ≤ area → (b + area - 1) / area - 1 = 0 := by
    intro b hb
    have : (b + area - 1) / area < 2 := Nat.div_lt_of_lt_mul (by omega)
    omega
  induction fuel generalizing big with
  | zero => rw [small big (by omega)]; rfl
  | succ fuel ih =>
    unfold imbalanceRounds
    split
    · rename_i hbig
      rw [ih (big - area) (by rw [Nat.add_mul] at h; omega)]
      have hone : 1 ≤ (big - 1) / area := (Nat.one_le_div_iff harea).mpr (by omega)
      have hnext : (big + area - 1) / area = (big - 1) / area + 1 := by
        rw [← Nat.add_div_right _ harea]; congr 1; omega
      rw [hnext, show big - area + area - 1 = big - 1 by omega]
      omega
    · rw [small big (by omega)]

/-- The imbalance loop is bounded by its rounds. -/
theorem imbalanceRounds_le (area fuel big : Nat) : imbalanceRounds area fuel big ≤ fuel := by
  induction fuel generalizing big with
  | zero => exact Nat.le_refl 0
  | succ fuel ih =>
    unfold imbalanceRounds
    split
    · have := ih (big - area); omega
    · omega

/-- The imbalance term N4 · (⌈10·|bw| / w²⌉ − 1), and 0 where bw = 0 (R162). -/
theorem imbalancePenalty_eq (p : Config.Params) (q : Bitmap) (w : Nat) {dark : Nat} (hdark : dark = darkCount q w) :
    imbalancePenalty p q w = p.n4 *
      (if ((dark : Int) - ((w * w : Nat) - dark)).natAbs = 0 then 0
       else (10 * ((dark : Int) - ((w * w : Nat) - dark)).natAbs + w * w - 1) / (w * w) - 1) := by
  have hle : dark ≤ w * w := hdark ▸ length_filter_gridCells_le w w _
  have hbw : dist dark (w * w - dark) = ((dark : Int) - ((w * w : Nat) - dark)).natAbs := by
    unfold dist; generalize w * w = area at *; omega
  unfold imbalancePenalty
  simp only [← hdark, hbw]
  split
  · rename_i h0
    simp only [h0, Nat.mul_zero]
    simp [imbalanceRounds]
  · rw [imbalanceRounds_eq]
    · generalize w * w = area at *; omega
    · generalize w * w = area at *; omega

/-! ### The bound -/

/-- With the default weights a run costs at most its length. -/
theorem runPenalty_le (r : List Nat) : runPenalty Config.defaultParams r ≤ r.sum := by
  unfold runPenalty
  induction r with
  | nil => simp
  | cons n r ih =>
    simp only [List.map_cons, List.sum_cons, Config.defaultParams] at ih ⊢
    split <;> omega

/-- Half of the numbers below h are odd. -/
theorem length_filter_odd_range (h : Nat) : ((List.range h).filter fun i => decide (i % 2 = 1)).length = h / 2 := by
  induction h with
  | zero => rfl
  | succ h ih =>
    rw [List.range_succ, List.filter_append, List.length_append, ih, List.filter_cons, List.filter_nil]
    by_cases hh : h % 2 = 1 <;> simp [hh] <;> omega

/-- Every second run at most is finder-like. -/
theorem finderPenalty_le (r : List Nat) : finderPenalty Config.defaultParams r ≤ 40 * ((r.length - 1) / 2) := by
  unfold finderPenalty
  rw [Nat.mul_comm 40, ← length_filter_odd_range]
  refine Nat.mul_le_mul_right 40 ?_
  rw [← List.countP_eq_length_filter, ← List.countP_eq_length_filter]
  refine List.countP_mono_left fun i _ hi => ?_
  simp only [Bool.and_eq_true] at hi
  exact hi.1.1.1

/-- With the default weights a line costs at most 21 for each module. -/
theorem linePenalty_le (line : List Bool) : linePenalty Config.defaultParams line ≤ 21 * line.length := by
  have hrun := runPenalty_le (runs line)
  have hfind := finderPenalty_le (runs line)
  have hlen := runs_length_le line
  rw [runs_sum] at hrun
  unfold linePenalty
  omega

/-- A sum of w numbers, none above a bound. -/
theorem sum_map_range_le (w : Nat) {f : Nat → Nat} {bound : Nat} (h : ∀ i, f i ≤ bound) :
    ((List.range w).map f).sum ≤ w * bound := by
  induction w with
  | zero => exact Nat.zero_le _
  | succ w ih =>
    have hw := h w
    rw [List.range_succ, List.map_append, List.sum_append, Nat.succ_mul]
    simp only [List.map_cons, List.map_nil, List.sum_cons, List.sum_nil]
    omega

/-- So do the w lines of a symbol in one direction. -/
theorem sum_linePenalty_le (w : Nat) (line : Nat → List Bool) (hlen : ∀ i, (line i).length = w) :
    ((List.range w).map fun i => linePenalty Config.defaultParams (line i)).sum ≤ 21 * w * w := by
  have hline : ∀ i, linePenalty Config.defaultParams (line i) ≤ 21 * w := fun i => hlen i ▸ linePenalty_le (line i)
  have hsum := sum_map_range_le w hline
  rwa [Nat.mul_comm] at hsum

/-- With the default weights the score of a symbol is below 2^21 (R163). -/
theorem score_lt (q : Bitmap) {w : Nat} (hw : w ≤ 177) : score Config.defaultParams q w < 2 ^ 21 := by
  have hblock : blockPenalty Config.defaultParams q w ≤ 3 * (w * w) := by
    exact Nat.mul_le_mul_left 3 (Nat.le_trans (length_filter_gridCells_le _ _ _)
      (Nat.mul_le_mul (Nat.sub_le w 1) (Nat.sub_le w 1)))
  have hrows := sum_linePenalty_le w (matrixRow q w) (fun y => by simp [matrixRow])
  have hcols := sum_linePenalty_le w (matrixCol q w) (fun x => by simp [matrixCol])
  have himb : imbalancePenalty Config.defaultParams q w ≤ 10 * 10 := Nat.mul_le_mul_left 10 (imbalanceRounds_le _ 10 _)
  have harea : w * w ≤ 177 * 177 := Nat.mul_le_mul hw hw
  unfold score
  rw [Nat.mul_assoc] at hrows hcols
  omega

/-- Settles O56: the runs by induction on the line, the score term by term, and the bound from the lengths of the lines. -/
theorem scoreIsTheSumOfItsTermsAndNeverWraps : Obligations.ScoreIsTheSumOfItsTermsAndNeverWraps := by
  unfold Obligations.ScoreIsTheSumOfItsTermsAndNeverWraps
  refine ⟨fun line => ⟨runs_sum line, fun i n hi hn => ?_, show spellRuns 0 (runs line) = line from spellRuns_runsFrom rfl 0 line⟩, fun p q w => ?_,
    fun q w _ hw => score_lt q hw⟩
  · obtain ⟨j, rfl⟩ := Nat.exists_eq_add_of_le' hi
    rw [← List.getElem?_tail] at hn
    exact runsFrom_tail_pos false 0 line n (List.mem_of_getElem? hn)
  · intro cell windows runTerm finderTerm lineTerm dark bw count
    have hline : linePenalty p = lineTerm := funext fun line => by
      unfold linePenalty; rw [runPenalty_eq, finderPenalty_eq]
    have hwindows : ((gridCells (w - 1) (w - 1)).filter (sameWindow q w)).length = windows := by
      rw [length_filter_gridCells]; simp only [sameWindow_eq]; rfl
    have hdark : dark = darkCount q w := by
      unfold darkCount; rw [length_filter_gridCells]; simp [dark, cell]
    unfold score blockPenalty
    rw [hwindows, hline, imbalancePenalty_eq p q w hdark]
    rfl

end Sys2Proof.Machine
end

section
/-! PROOFS. GENERATE as a function of its inputs (10_state.md R047, 40_commands.md R109) and its mask search as the host sees it (R041,
47_mask_finish.md R164, R169). -/

namespace Sys2Proof.Machine

/-! ### The selection and the encoded length -/

/-- The walk of R115 ends at a version of 1 to 40, with the configuration of that version. -/
theorem selectFrom_spec (n lvl : Nat) (fuel v : Nat) (hv : 1 ≤ v) (hfuel : v + fuel ≤ 41) :
    1 ≤ (selectFrom n lvl fuel v).v ∧ (selectFrom n lvl fuel v).v ≤ 40 ∧
      (selectFrom n lvl fuel v).cfg = lookupCfg lvl (selectFrom n lvl fuel v).v := by
  induction fuel generalizing v with
  | zero => exact ⟨by simp [selectFrom], Nat.le_refl 40, rfl⟩
  | succ fuel ih =>
    unfold selectFrom
    split
    · exact ⟨hv, by simp only; omega, rfl⟩
    · exact ih (v + 1) (by omega) (by omega)

/-- What S1 selects (41_selector.md R110, R115). -/
theorem selection_spec (s : State) :
    1 ≤ s.selection.v ∧ s.selection.v ≤ 40 ∧ s.selection.cfg = lookupCfg s.lvl s.selection.v :=
  selectFrom_spec s.inputLen s.lvl 40 1 (Nat.le_refl 1) (Nat.le_refl 41)

/-- The legal levels (10_state.md R029). -/
theorem levelLegal_iff {lvl : Nat} : levelLegal lvl = true ↔ 1 ≤ lvl ∧ lvl ≤ 4 := by
  simp [levelLegal]

/-- No version holds more than version 40 at the same level (41_selector.md R112, R114), in the form of R133. -/
theorem dataCodewords_le_capacity_40 :
    ∀ lvl ∈ List.range 5, ∀ v ∈ List.range 41, 1 ≤ lvl → 1 ≤ v →
      dataCodewords (lookupCfg lvl v) - 2 - (if v > 9 then 1 else 0) ≤ capacityOf 40 (lookupCfg lvl 40) := by
  decide +kernel

/-- The number of bytes GENERATE encodes (43_codeword.md R133). -/
abbrev State.symbolLen (s : State) : Nat := encodedLength s.inputLen s.selection.v s.selection.cfg

/-- What the stages S2 to S7 of GENERATE return (40_commands.md R102). -/
abbrev State.finished (s : State) : Finished :=
  generateSymbol s.params s.selection s.lvl (s.inbufBytes s.symbolLen) s.maskOverride

/-- GENERATE reads no more than min(LEN, CAP(40)) bytes of INBUF (R109, R133). -/
theorem symbolLen_le {s : State} (h : levelLegal s.lvl = true) :
    s.symbolLen ≤ min s.len.toNat (capacityOf 40 (lookupCfg s.ctrl.level.toNat 40)) := by
  obtain ⟨hv1, hv40, hcfg⟩ := selection_spec s
  obtain ⟨hl1, hl4⟩ := levelLegal_iff.mp h
  have hcap := dataCodewords_le_capacity_40 s.lvl (List.mem_range.mpr (by omega)) s.selection.v (List.mem_range.mpr (by omega))
    hl1 hv1
  unfold State.symbolLen encodedLength
  rw [hcfg]
  exact Nat.le_min.mpr ⟨Nat.min_le_left _ _, Nat.le_trans (Nat.min_le_right _ _) hcap⟩

/-! ### GENERATE depends on its inputs alone -/

/-- Two machines agree in every input of GENERATE (R109). -/
structure SameGenerateInputs (s s' : State) : Prop where
  params : s'.params = s.params
  level : s'.ctrl.level = s.ctrl.level
  strict : s'.ctrl.strict = s.ctrl.strict
  movrEn : s'.ctrl.movrEn = s.ctrl.movrEn
  movr : s'.ctrl.movr = s.ctrl.movr
  len : s'.len = s.len
  bytes : ∀ k, k < min s.len.toNat (capacityOf 40 (lookupCfg s.ctrl.level.toNat 40)) →
    ∃ b, Memory.get? s.mem (Config.inbufBase + k) = some b ∧ Memory.get? s'.mem (Config.inbufBase + k) = some b

section
/-! The operands of GENERATE, and so its checks and its symbol, are the same in both machines. -/

variable {s s' : State} (h : SameGenerateInputs s s')
include h

theorem SameGenerateInputs.lvl_eq : s'.lvl = s.lvl := by simp [State.lvl, h.level]

theorem SameGenerateInputs.inputLen_eq : s'.inputLen = s.inputLen := by simp [State.inputLen, h.len]

theorem SameGenerateInputs.maskOverride_eq : s'.maskOverride = s.maskOverride := by
  simp [State.maskOverride, h.movrEn, h.movr]

theorem SameGenerateInputs.overrideIllegal_eq : s'.overrideIllegal = s.overrideIllegal := by
  simp [State.overrideIllegal, h.movrEn, h.movr]

theorem SameGenerateInputs.selection_eq : s'.selection = s.selection := by
  rw [State.selection, h.inputLen_eq, h.lvl_eq]

theorem SameGenerateInputs.symbolLen_eq : s'.symbolLen = s.symbolLen := by
  rw [State.symbolLen, h.inputLen_eq, h.selection_eq]

/-- The same bytes are read: all of them are written ones. -/
theorem SameGenerateInputs.inbufBytes_eq {n : Nat}
    (hn : n ≤ min s.len.toNat (capacityOf 40 (lookupCfg s.ctrl.level.toNat 40))) : s'.inbufBytes n = s.inbufBytes n := by
  refine List.map_congr_left fun k hk => ?_
  obtain ⟨b, hb, hb'⟩ := h.bytes k (Nat.lt_of_lt_of_le (List.mem_range.mp hk) hn)
  rw [State.memByte_of_written hb, State.memByte_of_written hb']

/-- So the stages make the same symbol. -/
theorem SameGenerateInputs.finished_eq (hl : levelLegal s.lvl = true) : s'.finished = s.finished := by
  rw [State.finished, h.params, h.selection_eq, h.lvl_eq, h.symbolLen_eq, h.maskOverride_eq,
    h.inbufBytes_eq (symbolLen_le hl)]

/-- The rule of GENERATE raises the same error in both machines, or succeeds in both (60_exceptions.md R187). -/
theorem SameGenerateInputs.runGenerate_cases :
    (∃ e, runGenerate s = .error e ∧ runGenerate s' = .error e) ∨
    (levelLegal s.lvl = true ∧ runGenerate s = .ok s.generated ∧ runGenerate s' = .ok s'.generated) := by
  cases hl : levelLegal s.lvl with
  | false => exact .inl ⟨_, runGenerate_level hl, runGenerate_level (h.lvl_eq ▸ hl)⟩
  | true =>
    have hl' : levelLegal s'.lvl = true := h.lvl_eq ▸ hl
    cases ho : s.overrideIllegal with
    | true => exact .inl ⟨_, runGenerate_override hl ho, runGenerate_override hl' (h.overrideIllegal_eq.trans ho)⟩
    | false =>
      have ho' := h.overrideIllegal_eq.trans ho
      by_cases hfit : s.selection.fits = true ∨ s.ctrl.strict = false
      · exact .inr ⟨rfl, runGenerate_ok hl ho hfit, runGenerate_ok hl' ho' (by rwa [h.selection_eq, h.strict])⟩
      · simp only [not_or, Bool.not_eq_true, Bool.not_eq_false] at hfit
        obtain ⟨hf, hst⟩ := hfit
        exact .inl ⟨_, runGenerate_capacity hl ho hf hst,
          runGenerate_capacity hl' ho' (by rwa [h.selection_eq]) (h.strict.trans hst)⟩

end

/-- GENERATE writes every result register, so what they held before does not matter (R102). -/
theorem writeSymbol_res_congr (s s' : State) (sel : Selection) (n : Nat) (fin : Finished) :
    (s'.writeSymbol sel n fin).res = (s.writeSymbol sel n fin).res := rfl

/-- GENERATE writes every byte of MATRIX, so what they held before does not matter (R102, 47_mask_finish.md R170). -/
theorem writeSymbol_matrix_congr (s s' : State) (sel : Selection) (n : Nat) (fin : Finished) {a : Nat} (ha : isMatrix a = true) :
    Memory.get? (s'.writeSymbol sel n fin).mem a = Memory.get? (s.writeSymbol sel n fin).mem a := by
  rw [isMatrix_iff] at ha
  have hlo : Config.matrixBase ≤ a := ha.1
  have hhi : a < Config.matrixBase + (packMatrix fin.mod (symbolWidth sel.v)).length := by rw [packMatrix_length]; exact ha.2
  rw [State.writeSymbol_mem, State.writeSymbol_mem, Memory.get?_write_inside hlo hhi, Memory.get?_write_inside hlo hhi]

/-- Settles O60: the rule ends the same way in both machines, and the symbol is a function of the inputs. -/
theorem generateDependsOnlyOnItsInputs : Obligations.GenerateDependsOnlyOnItsInputs := by
  unfold Obligations.GenerateDependsOnlyOnItsInputs
  intro s s' t t' hparams hlevel hstrict hmovrEn hmovr hlen hbytes herr herr' ht ht'
  have h : SameGenerateInputs s s' := ⟨hparams, hlevel, hstrict, hmovrEn, hmovr, hlen, hbytes⟩
  simp only [exec, execGenerate] at ht ht'
  rcases h.runGenerate_cases with ⟨e, hr, hr'⟩ | ⟨hl, hr, hr'⟩
  · rw [hr, finishCommand_error, Host.Outcome.next.injEq] at ht
    rw [hr', finishCommand_error, Host.Outcome.next.injEq] at ht'
    subst ht ht'
    exact ⟨rfl, fun _ => rfl, fun h0 => absurd h0 e.code_ne_zero⟩
  · rw [hr, finishCommand_ok, Host.Outcome.next.injEq] at ht
    rw [hr', finishCommand_ok, Host.Outcome.next.injEq] at ht'
    have hgen : s'.generated = s'.writeSymbol s.selection s.symbolLen s.finished := by
      rw [← h.finished_eq hl, ← h.symbolLen_eq, ← h.selection_eq]
    rw [hgen] at ht'
    subst ht ht'
    refine ⟨herr'.trans herr.symm, fun h0 => absurd herr h0, fun _ => ⟨?_, ?_, ?_, fun a ha => ?_⟩⟩
    · exact writeSymbol_res_congr s s' _ _ _
    · exact congrArg Option.isNone h.maskOverride_eq
    · exact congrArg (fun n => decide (s.symbolLen < n)) h.inputLen_eq
    · exact writeSymbol_matrix_congr s s' _ s.symbolLen _ ha

/-! ### The mask search -/

/-- The search holds the smallest score so far and the earliest index that has it (47_mask_finish.md R164). -/
def EarliestMinimum (scores : List Nat) (acc : Option Nat × Nat) : Prop :=
  ∃ best, acc.1 = some best ∧ scores[acc.2]? = some best ∧
    ∀ j x, scores[j]? = some x → best ≤ x ∧ (j < acc.2 → best < x)

/-- One more candidate keeps it so: only a strictly lower score replaces the current best. -/
theorem EarliestMinimum.snoc {scores : List Nat} {acc : Option Nat × Nat} (h : EarliestMinimum scores acc) (x : Nat) :
    EarliestMinimum (scores ++ [x]) (betterMask acc (x, scores.length)) := by
  obtain ⟨best, hbest, hat, hmin⟩ := h
  have hlt : acc.2 < scores.length := (List.getElem?_eq_some_iff.mp hat).1
  have hsplit : ∀ j y, (scores ++ [x])[j]? = some y → scores[j]? = some y ∨ (j = scores.length ∧ y = x) := by
    intro j y hy
    rcases Nat.lt_or_ge j scores.length with hj | hj
    · exact .inl (by rwa [List.getElem?_append_left hj] at hy)
    · rw [List.getElem?_append_right hj, List.getElem?_singleton] at hy
      split at hy
      · exact .inr ⟨by omega, (Option.some.inj hy).symm⟩
      · cases hy
  unfold betterMask
  rw [hbest]
  by_cases hx : x < best
  · simp only [hx, if_true]
    refine ⟨x, rfl, by simp, fun j y hy => ?_⟩
    rcases hsplit j y hy with hy | ⟨rfl, rfl⟩
    · have := (hmin j y hy).1
      exact ⟨by omega, fun _ => by omega⟩
    · exact ⟨Nat.le_refl _, fun hj => absurd hj (Nat.lt_irrefl _)⟩
  · simp only [hx, if_false]
    refine ⟨best, hbest, by rw [List.getElem?_append_left hlt]; exact hat, fun j y hy => ?_⟩
    rcases hsplit j y hy with hy | ⟨rfl, rfl⟩
    · exact hmin j y hy
    · exact ⟨by omega, fun hj => by omega⟩

/-- So the search keeps it over all the candidates that follow. -/
theorem EarliestMinimum.append {scores : List Nat} {acc : Option Nat × Nat} (h : EarliestMinimum scores acc) (rest : List Nat) :
    EarliestMinimum (scores ++ rest) ((rest.zipIdx scores.length).foldl betterMask acc) := by
  induction rest generalizing scores acc with
  | nil => rw [List.append_nil]; exact h
  | cons x rest ih =>
    have hnext := ih (h.snoc x)
    rw [List.append_assoc, List.singleton_append, List.length_append, List.length_singleton] at hnext
    rw [List.zipIdx_cons, List.foldl_cons]
    exact hnext

/-- The first candidate is the minimum of itself. -/
theorem earliestMinimum_singleton (x : Nat) : EarliestMinimum [x] (some x, 0) :=
  ⟨x, rfl, rfl, fun j y hy => by
    rw [List.getElem?_singleton] at hy
    split at hy
    · exact ⟨Nat.le_of_eq (Option.some.inj hy), fun hj => absurd hj (Nat.not_lt_zero j)⟩
    · cases hy⟩

/-- The search with INITIAL_BEST = NONE (R164). -/
theorem earliestMinimum_search {scores : List Nat} (h : scores ≠ []) :
    EarliestMinimum scores (scores.zipIdx.foldl betterMask (none, 0)) := by
  cases scores with
  | nil => exact absurd rfl h
  | cons x rest => exact (earliestMinimum_singleton x).append rest

/-- The mask kept has a minimal score, and every earlier mask a larger one. -/
theorem bestMask_spec {scores : List Nat} (h : 0 < scores.length) :
    bestMask none scores < scores.length ∧
    (∀ j, j < scores.length → scores.getD (bestMask none scores) 0 ≤ scores.getD j 0) ∧
    (∀ j, j < bestMask none scores → scores.getD (bestMask none scores) 0 < scores.getD j 0) := by
  obtain ⟨best, -, hat, hmin⟩ := earliestMinimum_search (List.ne_nil_of_length_pos h)
  have hlt : bestMask none scores < scores.length := (List.getElem?_eq_some_iff.mp hat).1
  have hbest : scores.getD (bestMask none scores) 0 = best := by
    rw [List.getD_eq_getElem?_getD, show scores[bestMask none scores]? = some best from hat, Option.getD_some]
  have hget : ∀ j, j < scores.length → scores[j]? = some (scores.getD j 0) := fun j hj => by simp [hj]
  rw [hbest]
  exact ⟨hlt, fun j hj => (hmin j _ (hget j hj)).1, fun j hj => (hmin j _ (hget j (Nat.lt_trans hj hlt))).2 hj⟩

/-- A GENERATE that ends with ERR = 0 passed its checks and wrote its symbol (40_commands.md R102). -/
theorem generate_without_error {s t : State} (h : exec .generate s = .next t) (ht : t.status.err = 0) :
    levelLegal s.lvl = true ∧ t = s.generated.complete := by
  rcases exec_next h with ⟨e, -, rfl⟩ | ⟨hi, -⟩ | ⟨-, hl, -, -, rfl⟩ | ⟨hi, -⟩ | ⟨hi, -⟩ | ⟨hi, -⟩
  · exact absurd ht e.code_ne_zero
  · cases hi
  · exact ⟨hl, rfl⟩
  · cases hi
  · cases hi
  · cases hi

/-- The j-th score of the search (R164). -/
theorem maskScores_getD (p : Config.Params) (excl : Bitmap) (w : Nat) (pre : Bitmap) {j : Nat} (hj : j < 8) :
    (maskScores p excl w pre).getD j 0 = score p (applyMask excl w pre j) w := by
  simp [maskScores, hj]

/-- The search keeps one of the eight masks. -/
theorem maskScores_length (p : Config.Params) (excl : Bitmap) (w : Nat) (pre : Bitmap) :
    (maskScores p excl w pre).length = 8 := by
  simp [maskScores]

/-- SCORE[j] holds a score below 2^32 unreduced (10_state.md R041). -/
theorem scoreRegs_get {scores : List Nat} {j : Fin 8} (h : scores.getD j.val 0 < 2 ^ 32) :
    ((scoreRegs scores).get j).toNat = scores.getD j.val 0 := by
  have hget : (scoreRegs scores).get j = (scoreRegs scores)[j.val] := rfl
  rw [hget, scoreRegs, Vector.getElem_ofFn, BitVec.toNat_ofNat, Nat.mod_eq_of_lt h]

/-- The packed matrix of GENERATE, before a mask (46_pack.md R152). -/
abbrev State.packedMatrix (s : State) : Bitmap :=
  let cw := encodeCodewords (s.inbufBytes s.symbolLen) s.selection.v (dataCodewords s.selection.cfg)
  pack (layout s.selection.v) (interleave cw (rsBlocks cw s.selection.cfg) s.selection.cfg) (symbolWidth s.selection.v)

/-- The scores of the packed matrix under the eight masks (47_mask_finish.md R164). -/
abbrev State.searchScores (s : State) : List Nat :=
  maskScores Config.defaultParams (layout s.selection.v).excl (symbolWidth s.selection.v) s.packedMatrix

/-- The finisher reports the mask it was given (R168). -/
@[simp] theorem finishWith_mask (p : Config.Params) (pre excl : Bitmap) (v lvl k : Nat) (scores : List Nat) :
    (finishWith p pre excl v lvl k scores).mask = k := by
  unfold finishWith; dsimp only; split <;> rfl

/-- The finisher reports the scores it was given (R169). -/
@[simp] theorem finishWith_scores (p : Config.Params) (pre excl : Bitmap) (v lvl k : Nat) (scores : List Nat) :
    (finishWith p pre excl v lvl k scores).scores = scores := by
  unfold finishWith; dsimp only; split <;> rfl

/-- With the default parameters and no override, GENERATE reports the scores of the packed matrix and the mask the search keeps. -/
theorem finished_of_search {s : State} (hp : s.params = Config.defaultParams) (hm : s.ctrl.movrEn = false) :
    s.finished.scores = s.searchScores ∧ s.finished.mask = bestMask none s.searchScores := by
  have hover : s.maskOverride = none := by simp [State.maskOverride, hm]
  have hpre : preMask Config.defaultParams s.packedMatrix s.selection.v = s.packedMatrix := by
    simp [preMask, Config.defaultParams]
  have hfin : s.finished = finishWith Config.defaultParams s.packedMatrix (layout s.selection.v).excl s.selection.v s.lvl
      (bestMask none s.searchScores) s.searchScores := by
    rw [State.finished, hp, hover]
    simp only [generateSymbol, maskFinish, hpre]
    rfl
  rw [hfin]
  exact ⟨finishWith_scores .., finishWith_mask ..⟩

/-- The mask the search of GENERATE keeps (R164). -/
theorem bestMask_searchScores (s : State) :
    bestMask none s.searchScores < 8 ∧
    (∀ j, j < 8 → s.searchScores.getD (bestMask none s.searchScores) 0 ≤ s.searchScores.getD j 0) ∧
    (∀ j, j < bestMask none s.searchScores →
      s.searchScores.getD (bestMask none s.searchScores) 0 < s.searchScores.getD j 0) := by
  have hlength : s.searchScores.length = 8 := maskScores_length ..
  rw [← hlength]
  exact bestMask_spec (by omega)

/-- VERSION, EFFLEN, MASKSEL and SCORE hold their numbers unreduced after a searching GENERATE (10_state.md R040, R041). -/
theorem generated_registers {s : State} (hp : s.params = Config.defaultParams) (hm : s.ctrl.movrEn = false) :
    s.generated.res.version.toNat = s.selection.v ∧ s.generated.res.effLen.toNat = s.symbolLen ∧
    s.generated.res.maskSel.toNat = bestMask none s.searchScores ∧
    ∀ j : Fin 8, (s.generated.res.score.get j).toNat = s.searchScores.getD j.val 0 := by
  obtain ⟨hscores, hmask⟩ := finished_of_search hp hm
  obtain ⟨-, hv40, -⟩ := selection_spec s
  have hlen : s.symbolLen < 2 ^ 16 := Nat.lt_of_le_of_lt (Nat.min_le_left _ _) s.len.isLt
  refine ⟨?_, ?_, ?_, fun j => ?_⟩
  · exact Nat.mod_eq_of_lt (show s.selection.v < 2 ^ 6 by omega)
  · exact Nat.mod_eq_of_lt hlen
  · exact (congrArg (· % 2 ^ 3) hmask).trans (Nat.mod_eq_of_lt (bestMask_searchScores s).1)
  · have hlt : s.searchScores.getD j.val 0 < 2 ^ 32 := by
      rw [maskScores_getD _ _ _ _ j.isLt]
      have hwidth : symbolWidth s.selection.v ≤ 177 := by unfold symbolWidth; omega
      exact Nat.lt_trans (score_lt _ hwidth) (by decide)
    rw [State.writeSymbol_res, hscores]
    exact scoreRegs_get hlt

/-- Settles O59: SCORE holds the scores of the search, and MASKSEL the earliest of the smallest. -/
theorem maskselIsTheEarliestMinimalScore : Obligations.MaskselIsTheEarliestMinimalScore := by
  unfold Obligations.MaskselIsTheEarliestMinimalScore
  intro s t hp hm _ ht herr
  obtain ⟨-, rfl⟩ := generate_without_error ht herr
  obtain ⟨hversion, hlen, hmask, hscore⟩ := generated_registers hp hm
  obtain ⟨-, -, hcfg⟩ := selection_spec s
  obtain ⟨-, hmin, hearly⟩ := bestMask_searchScores s
  have hreg : ∀ j : Fin 8, (s.generated.complete.res.score.get j).toNat = s.searchScores.getD j.val 0 := hscore
  have hkept : (s.generated.complete.res.score.get s.generated.complete.res.maskSel.toFin).toNat =
      s.searchScores.getD (bestMask none s.searchScores) 0 := (hreg _).trans (congrArg (s.searchScores.getD · 0) hmask)
  have hlvl : s.ctrl.level.toNat = s.lvl := rfl
  simp only [State.complete_res] at hreg hkept ⊢
  rw [hversion, hlen, hlvl, ← hcfg]
  refine ⟨?_, fun j => ?_, fun j => ?_, fun j hj => ?_⟩
  · simp [State.maskOverride, hm]
  · rw [hreg, maskScores_getD _ _ _ _ j.isLt]
  · rw [hkept, hreg]
    exact hmin j j.isLt
  · rw [hkept, hreg]
    exact hearly j (hmask ▸ hj)

end Sys2Proof.Machine
end

section
/-! PROOFS. The host's bus accesses to the buffers (20_memory.md R060 to R075): which accesses the block takes, the bytes of a value in
little-endian order, what a buffer read returns, and that an unwritten byte holds its value until a reset. -/

namespace Sys2Proof.Machine

/-! ### Which accesses the block takes -/

/-- The accesses the block takes (R062 to R065). -/
theorem accessLegal_iff {a : Addr} {n : Width} :
    accessLegal a n = true ↔
      (a.toNat < 0x100 ∧ n = .w4 ∧ a.toNat % 4 = 0) ∨
      ((0x1000 ≤ a.toNat ∧ a.toNat < 0x2000 ∨ 0x2000 ≤ a.toNat ∧ a.toNat < 0x2020 ∨ 0x4000 ≤ a.toNat ∧ a.toNat < 0x5000) ∧
        a.toNat % n.bytes = 0) := by
  cases hr : regionOf a with
  | registers =>
    have hreg := regionOf_eq_registers.mp hr
    simp only [accessLegal, hr, aligned, Bool.and_eq_true, decide_eq_true_eq]
    constructor
    · rintro ⟨rfl, hal⟩
      exact .inl ⟨hreg, rfl, hal⟩
    · rintro (⟨-, rfl, hal⟩ | ⟨hbuf, -⟩)
      · exact ⟨rfl, hal⟩
      · omega
  | unmapped =>
    have hfalse : accessLegal a n = false := by simp only [accessLegal, hr]
    unfold regionOf at hr
    grind
  | inbuf | rsout | matrix =>
    have hal : accessLegal a n = decide (a.toNat % n.bytes = 0) := by simp only [accessLegal, hr, aligned]
    unfold regionOf at hr
    grind

/-- A MemRead is a bus error exactly where the access is illegal (R071). -/
@[simp] theorem memRead_isSome (s : State) (a : Addr) (n : Width) : (s.memRead a n).isSome = accessLegal a n := by
  unfold State.memRead; cases accessLegal a n <;> rfl

/-- So is a MemWrite. -/
@[simp] theorem memWrite_isSome (s : State) (a : Addr) (n : Width) (v : Word) : (s.memWrite a n v).isSome = accessLegal a n := by
  unfold State.memWrite; cases accessLegal a n <;> rfl

/-- Settles O24: both accesses have a result exactly where the access is legal. -/
theorem busErrorsAreExactlyTheIllegalAccesses : Obligations.BusErrorsAreExactlyTheIllegalAccesses := by
  unfold Obligations.BusErrorsAreExactlyTheIllegalAccesses
  intro s a n v
  exact ⟨by rw [memRead_isSome]; exact accessLegal_iff, by rw [memWrite_isSome]; exact accessLegal_iff⟩

/-! ### The access statements of the host -/

/-- A legal MemWrite has the effect of its region (R070). -/
theorem memWrite_of_legal (s : State) {a : Addr} {n : Width} (v : Word) (hl : accessLegal a n = true) :
    s.memWrite a n v = some (s.writeValue a n v) := if_pos hl

/-- A legal MemRead returns its value and uses one draw (R070). -/
theorem memRead_of_legal (s : State) {a : Addr} {n : Width} (hl : accessLegal a n = true) :
    s.memRead a n = some (s.readValue a n, s.drawn) := if_pos hl

/-- On the host's turn the step is that of the statement the host is at (R073, R092). -/
theorem step_of_stmt {s : State} {st : HostStmt} (hturn : s.turn = .host) (hst : s.host.stmt? = some st) :
    step s = execHost st s.tick := by
  simp only [step, agentStep, hturn, hostStep, State.tick_host, hst]

/-- Settles O26: the step of the statement, with the access's result put in. -/
theorem hostAccessStatements : Obligations.HostAccessStatements := by
  unfold Obligations.HostAccessStatements
  refine fun s a n hturn hl => ⟨fun v hst => ?_, fun r hst => ?_⟩
  · have hw := memWrite_of_legal s.tick (s.host.writeSrc v) hl
    obtain ⟨-, -, -, -, -, hhost⟩ := memWrite_frame hw
    simp only [step_of_stmt hturn hst, execHost, hostWrite, State.tick_host, hw, hhost]
  · simp only [step_of_stmt hturn hst, execHost, hostRead, memRead_of_legal s.tick hl, State.drawn_host, State.tick_host]

/-! ### Little-endian values -/

/-- The value of a run of bytes is below 2 to the number of its bits (R066). -/
theorem leValue_lt (bs : List Byte) : leValue bs < 2 ^ (8 * bs.length) := by
  induction bs with
  | nil => simp [leValue]
  | cons b bs ih =>
    have hb := b.isLt
    rw [leValue, List.length_cons, Nat.mul_add, Nat.pow_add]
    omega

/-- Byte j of the value of a run of bytes is the run's byte j (R066). -/
theorem leValue_byte {bs : List Byte} {j : Nat} (hj : j < bs.length) : BitVec.ofNat 8 (leValue bs / 2 ^ (8 * j)) = bs[j] := by
  induction bs generalizing j with
  | nil => simp at hj
  | cons b bs ih =>
    have hb := b.isLt
    cases j with
    | zero =>
      apply BitVec.eq_of_toNat_eq
      simpa [leValue] using hb
    | succ j =>
      have hstep : leValue (b :: bs) / 2 ^ (8 * (j + 1)) = leValue bs / 2 ^ (8 * j) := by
        rw [Nat.mul_succ, Nat.add_comm, Nat.pow_add, ← Nat.div_div_eq_div_mul, leValue]
        congr 1
        omega
      simpa [hstep] using ih (by simpa using hj)

/-- The n low bytes of a number in little-endian order have its value modulo 2 to the number of their bits (R066). -/
theorem leValue_lowBytes (x n : Nat) :
    leValue ((List.range n).map fun j => BitVec.ofNat 8 (x / 2 ^ (8 * j))) = x % 2 ^ (8 * n) := by
  induction n generalizing x with
  | zero => simp [leValue, Nat.mod_one]
  | succ n ih =>
    have hshift : ∀ j, x / 2 ^ (8 * (j + 1)) = x / 256 / 2 ^ (8 * j) := fun j => by
      rw [Nat.mul_succ, Nat.add_comm, Nat.pow_add, Nat.div_div_eq_div_mul]
    rw [List.range_succ_eq_map, List.map_cons, List.map_map, leValue]
    simp only [Function.comp_def, Nat.succ_eq_add_one, hshift, ih]
    rw [Nat.mul_succ, Nat.add_comm (8 * n), Nat.pow_add, Nat.mod_mul]
    simp

/-! ### What a buffer read returns -/

/-- An access has at most 4 bytes (R063). -/
theorem Width.bytes_le (n : Width) : n.bytes ≤ 4 := by cases n <;> decide

/-- n bytes from an address upward, as the host reads them. -/
def State.readBytes (s : State) (a n : Nat) : List Byte := (List.range n).map fun j => s.readByte (a + j)

@[simp] theorem State.readBytes_length (s : State) (a n : Nat) : (s.readBytes a n).length = n := by simp [State.readBytes]

/-- Outside the register range a read returns the value of its bytes (R066). -/
theorem readValue_buffer (s : State) {a : Addr} (n : Width) (h : 0x100 ≤ a.toNat) :
    s.readValue a n = BitVec.ofNat 32 (leValue (s.readBytes a.toNat n.bytes)) := by
  unfold State.readValue
  split
  · rename_i hr
    exact absurd (regionOf_eq_registers.mp hr) (by omega)
  · rfl

/-- The value of an access's bytes fits into its width. -/
theorem leValue_readBytes_lt (s : State) (a : Nat) (n : Width) : leValue (s.readBytes a n.bytes) < 2 ^ (8 * n.bytes) := by
  simpa using leValue_lt (s.readBytes a n.bytes)

/-- A buffer read is zero-extended (R092): as a number it is the value of its bytes. -/
theorem readValue_buffer_toNat (s : State) {a : Addr} (n : Width) (h : 0x100 ≤ a.toNat) :
    (s.readValue a n).toNat = leValue (s.readBytes a.toNat n.bytes) := by
  rw [readValue_buffer s n h, BitVec.toNat_ofNat]
  refine Nat.mod_eq_of_lt (Nat.lt_of_lt_of_le (leValue_readBytes_lt s _ n) (Nat.pow_le_pow_right (by decide) ?_))
  have := n.bytes_le
  omega

/-- Byte j of a buffer read is the byte at a + j (R066). -/
theorem readValue_buffer_byte (s : State) {a : Addr} {n : Width} (h : 0x100 ≤ a.toNat) {j : Nat} (hj : j < n.bytes) :
    (s.readValue a n).extractLsb' (8 * j) 8 = s.readByte (a.toNat + j) := by
  have hbyte := leValue_byte (bs := s.readBytes a.toNat n.bytes) (j := j) (by simpa using hj)
  rw [← readValue_buffer_toNat s n h, ← Nat.shiftRight_eq_div_pow] at hbyte
  exact hbyte.trans (by simp [State.readBytes])

/-- INBUF reads its content at every time (R072). -/
theorem readByte_inbuf (s : State) {a : Nat} (h : isInbuf a = true) : s.readByte a = s.memByte a := if_pos h

/-- Each storage byte reads its content while BUSY = 0 (R061). -/
theorem readByte_storage {s : State} {a : Nat} (hp : s.pend = none) (h : isStorage a = true) : s.readByte a = s.memByte a := by
  by_cases hin : isInbuf a = true
  · exact readByte_inbuf s hin
  · have hout : (isRsout a || isMatrix a) = true := by simpa [isStorage, hin] using h
    simp [State.readByte, hin, hout, State.busy, hp]

/-- The MATRIX region above its storage reads 0 (R061). -/
theorem readByte_above (s : State) {a : Nat} (h : 0x4F4D ≤ a) : s.readByte a = 0 := by
  have hin : ¬ isInbuf a = true := by rw [isInbuf_iff]; omega
  have hrs : ¬ isRsout a = true := by rw [isRsout_iff]; omega
  have hmat : ¬ isMatrix a = true := by rw [isMatrix_iff]; omega
  simp [State.readByte, hin, hrs, hmat]

/-- Two machines that read the same bytes of a buffer read the same value there. -/
theorem readValue_buffer_congr {s t : State} {a : Addr} {n : Width} (h : 0x100 ≤ a.toNat)
    (hbytes : ∀ j < n.bytes, s.readByte (a.toNat + j) = t.readByte (a.toNat + j)) : s.readValue a n = t.readValue a n := by
  rw [readValue_buffer s n h, readValue_buffer t n h]
  congr 2
  exact List.map_congr_left fun j hj => hbytes j (List.mem_range.mp hj)

/-! ### Writes to INBUF -/

/-- While BUSY = 0 a legal write to INBUF stores its bytes and changes nothing else (R066, R205). -/
theorem memWrite_inbuf {s : State} {a : Addr} {n : Width} (v : Word) (hp : s.pend = none) (hr : regionOf a = .inbuf)
    (hl : accessLegal a n = true) :
    s.memWrite a n v = some { s with mem := Memory.write s.mem a.toNat (leBytes v n.bytes) } := by
  rw [memWrite_of_legal s v hl]
  simp only [State.writeValue, hr, unlessBusy_of_none hp]

/-- Byte j of a value (R066). -/
theorem leBytes_getElem? (v : Word) {n j : Nat} (h : j < n) : (leBytes v n)[j]? = some (v.extractLsb' (8 * j) 8) := by
  simp [leBytes, h]

/-- Settles O33: the bytes of the write by the laws of the memory, and a later read from the bytes it names. -/
theorem inbufWritesAreLittleEndian : Obligations.InbufWritesAreLittleEndian := by
  unfold Obligations.InbufWritesAreLittleEndian
  intro s a n v hp hlo hhi hl
  have hr := regionOf_eq_inbuf.mpr ⟨hlo, hhi⟩
  obtain ⟨-, htop⟩ := inbuf_access hr hl
  refine ⟨_, memWrite_inbuf v hp hr hl, ?_⟩
  generalize ht : ({ s with mem := Memory.write s.mem a.toNat (leBytes v n.bytes) } : State) = t
  have hmem : t.mem = Memory.write s.mem a.toNat (leBytes v n.bytes) := ht ▸ rfl
  have hbyte : ∀ j, j < n.bytes → Memory.get? t.mem (a.toNat + j) = some (v.extractLsb' (8 * j) 8) := fun j hj => by
    rw [hmem, Memory.get?_write_inside (by omega) (by simpa using hj), Nat.add_sub_cancel_left, leBytes_getElem? v hj]
  refine ⟨hbyte, fun b hb => ?_, fun b m _ hblo hbhi => ?_⟩
  · rw [hmem, Memory.get?_write_outside (by simpa using hb)]
  · obtain ⟨k, hk⟩ := Nat.exists_eq_add_of_le hblo
    have hread : t.readBytes b.toNat m.bytes =
        (List.range m.bytes).map fun j => BitVec.ofNat 8 (v.toNat / 2 ^ (8 * k) / 2 ^ (8 * j)) := by
      refine List.map_congr_left fun j hj => ?_
      have hj := List.mem_range.mp hj
      have hin : isInbuf (b.toNat + j) = true := isInbuf_iff.mpr (by omega)
      rw [readByte_inbuf t hin, hk, Nat.add_assoc, State.memByte_of_written (hbyte (k + j) (by omega)),
        Nat.div_div_eq_div_mul, ← Nat.pow_add, ← Nat.mul_add, ← Nat.shiftRight_eq_div_pow]
      rfl
    rw [readValue_buffer_toNat t m (by omega), hread, leValue_lowBytes, hk, Nat.add_sub_cancel_left]

/-! ### Reads while BUSY = 1 -/

/-- ID, CTRL, CMD, LEN, VSEL, ECCLEN and the reserved offsets read the same whatever PEND is (R072). -/
theorem readReg_withoutPend (s : State) {off : Nat}
    (h : off ∈ [0x000, 0x004, 0x008, 0x010, 0x014, 0x018, 0x01C, 0x054, 0x058, 0x05C] ∨ 0x080 ≤ off) :
    s.readReg off = { s with pend := none }.readReg off := by
  rcases h with h | h
  · simp only [List.mem_cons, List.not_mem_nil, or_false] at h
    rcases h with rfl | rfl | rfl | rfl | rfl | rfl | rfl | rfl | rfl | rfl <;> rfl
  · simp only [State.readReg, reg?_eq_none _ h, ownReg_eq_zero _ (show 0x01C ≤ off by omega)]

/-- STATUS reads as it does while BUSY = 0, but for its BUSY bit (R025, R072). -/
theorem statusWord_of_busy {s : State} (hp : s.pend ≠ none) :
    s.statusWord = { s with pend := none }.statusWord ||| 1#32 := by
  apply BitVec.eq_of_getLsbD_eq
  intro i _
  rw [BitVec.getLsbD_or, State.getLsbD_statusWord, State.getLsbD_statusWord]
  by_cases h0 : i = 0
  · subst h0
    simpa using Option.isSome_iff_ne_none.mpr hp
  · simp [h0]

/-- Settles O34: the registers by their offsets, INBUF byte by byte. -/
theorem busyBlockStillReadsItsOperands : Obligations.BusyBlockStillReadsItsOperands := by
  unfold Obligations.BusyBlockStillReadsItsOperands
  refine fun s a n hl => ⟨fun ha => ?_, fun ha hp => ?_⟩
  · by_cases hreg : a.toNat < 0x100
    · obtain rfl := width_of_legal_register hreg hl
      rw [readValue_register _ hreg, readValue_register _ hreg]
      exact readReg_withoutPend s (ha.imp_right And.left)
    · have hr : regionOf a = .inbuf := by
        have := legal_range hl
        simp only [List.mem_cons, List.not_mem_nil, or_false] at ha
        exact regionOf_eq_inbuf.mpr (by omega)
      obtain ⟨hlo, htop⟩ := inbuf_access hr hl
      refine readValue_buffer_congr (by omega) fun j hj => ?_
      have hin : isInbuf (a.toNat + j) = true := isInbuf_iff.mpr (by omega)
      rw [readByte_inbuf _ hin, readByte_inbuf _ hin]
      rfl
  · have hreg : a.toNat < 0x100 := by omega
    obtain rfl := width_of_legal_register hreg hl
    rw [readValue_register _ hreg, readValue_register _ hreg, ha]
    exact statusWord_of_busy hp

/-! ### Unwritten bytes -/

/-- A byte that is unwritten after a write was unwritten before it. -/
theorem Memory.get?_eq_none_of_write {m : Memory} {b a : Nat} {bs : List Byte} (h : Memory.get? (Memory.write m b bs) a = none) :
    Memory.get? m a = none := by
  rw [Memory.get?_write] at h
  split at h
  · rename_i hin
    have := List.getElem?_eq_none_iff.mp h
    omega
  · exact h

/-- No byte becomes unwritten and what the unwritten bytes hold is not drawn anew: what every step but a reset keeps (R201). -/
def KeepsUnwritten (s t : State) : Prop :=
  (∀ a, Memory.get? t.mem a = none → Memory.get? s.mem a = none) ∧ t.resetCount = s.resetCount

/-- An unwritten byte holds what it held. -/
theorem KeepsUnwritten.memByte_eq {s t : State} (h : KeepsUnwritten s t) {a : Nat} (ha : Memory.get? t.mem a = none) :
    t.memByte a = s.memByte a :=
  State.memByte_congr (ha.trans (h.1 a ha).symm) h.2

/-- An update that leaves the memory and the number of resets alone keeps them. -/
theorem keepsUnwritten_of_mem_eq {s t : State} (hm : t.mem = s.mem) (hr : t.resetCount = s.resetCount) : KeepsUnwritten s t :=
  ⟨fun _ ha => hm ▸ ha, hr⟩

/-- So does one that writes a run of bytes. -/
theorem keepsUnwritten_of_write {s t : State} {b : Nat} {bs : List Byte} (hm : t.mem = Memory.write s.mem b bs)
    (hr : t.resetCount = s.resetCount) : KeepsUnwritten s t :=
  ⟨fun _ ha => Memory.get?_eq_none_of_write (hm ▸ ha), hr⟩

/-- Two updates in a row that keep them. -/
theorem KeepsUnwritten.trans {s t u : State} (h : KeepsUnwritten s t) (h' : KeepsUnwritten t u) : KeepsUnwritten s u :=
  ⟨fun a ha => h.1 a (h'.1 a ha), h'.2.trans h.2⟩

/-- Every ENGINE step keeps the unwritten bytes. -/
theorem engineStep_keepsUnwritten {w : Word} {s t : State} (h : engineStep w s = .next t) : KeepsUnwritten s t := by
  rcases engineStep_next h with ⟨e, -, rfl⟩ | ⟨i, -, hi⟩
  · exact keepsUnwritten_of_mem_eq rfl rfl
  · rcases exec_next hi with ⟨e, -, rfl⟩ | ⟨-, rfl⟩ | ⟨-, -, -, -, rfl⟩ | ⟨-, -, -, -, rfl⟩ | ⟨-, -, -, rfl⟩ | ⟨-, -, -, -, rfl⟩
    · exact keepsUnwritten_of_mem_eq rfl rfl
    · exact keepsUnwritten_of_mem_eq rfl rfl
    · exact keepsUnwritten_of_write rfl rfl
    · exact keepsUnwritten_of_mem_eq rfl rfl
    · exact keepsUnwritten_of_mem_eq rfl rfl
    · exact keepsUnwritten_of_write rfl rfl

/-- Every MemWrite keeps the unwritten bytes. -/
theorem memWrite_keepsUnwritten {s t : State} {a : Addr} {n : Width} {v : Word} (h : s.memWrite a n v = some t) :
    KeepsUnwritten s t := by
  obtain ⟨-, rfl | ⟨-, rfl⟩ | ⟨-, rfl⟩ | ⟨-, ⟨-, rfl⟩ | ⟨-, rfl⟩ | ⟨-, rfl⟩ | ⟨-, rfl⟩ | ⟨-, rfl⟩ | ⟨-, rfl⟩⟩⟩ := memWrite_some h
  case inr.inr.inr.inr.inr.inr.inr.inr => exact keepsUnwritten_of_write rfl rfl
  all_goals exact keepsUnwritten_of_mem_eq rfl rfl

/-- Every HOST step keeps the unwritten bytes. -/
theorem hostStep_keepsUnwritten {s t : State} (h : hostStep s = .next t) : KeepsUnwritten s t := by
  obtain ⟨u, g, rfl, -, rfl | rfl | ⟨n, a, v, -, hu⟩⟩ := hostStep_next h
  · exact keepsUnwritten_of_mem_eq rfl rfl
  · exact keepsUnwritten_of_mem_eq rfl rfl
  · exact (memWrite_keepsUnwritten hu).trans (keepsUnwritten_of_mem_eq rfl rfl)

/-- Every step but a reset of the block keeps the unwritten bytes (R201). -/
theorem step_keepsUnwritten {s t : State} (hturn : s.turn ≠ .platform) (h : step s = .next t) : KeepsUnwritten s t := by
  rcases step_next h with ⟨w, -, -, he⟩ | ⟨hp, -⟩ | ⟨-, hh⟩
  · exact engineStep_keepsUnwritten he
  · exact absurd hp hturn
  · exact (keepsUnwritten_of_mem_eq rfl rfl : KeepsUnwritten s s.tick).trans (hostStep_keepsUnwritten hh)

/-! ### Modules of MATRIX through the window -/

/-- Module i of MATRIX is bit i mod 8 of a read of byte i div 8 (R068). -/
theorem readValue_module {s : State} {i : Nat} {m : Bool} (hp : s.pend = none) (hi : i < 8 * 3917)
    (hm : s.matrixModule? i = some m) :
    (s.readValue (BitVec.ofNat 15 (0x4000 + i / 8)) .w1).getLsbD (i % 8) = m := by
  obtain ⟨b, hb, hbit⟩ : ∃ b, Memory.get? s.mem (0x4000 + i / 8) = some b ∧ b.getLsbD (i % 8) = m :=
    Option.map_eq_some_iff.mp hm
  have ha : (BitVec.ofNat 15 (0x4000 + i / 8)).toNat = 0x4000 + i / 8 := by
    rw [BitVec.toNat_ofNat]; exact Nat.mod_eq_of_lt (by omega)
  have hs : isStorage (0x4000 + i / 8) = true := by
    simp only [isStorage, Bool.or_eq_true, isMatrix_iff]
    exact .inr (by omega)
  have hbyte : (s.readValue (BitVec.ofNat 15 (0x4000 + i / 8)) .w1).extractLsb' 0 8 = b := by
    have hread := readValue_buffer_byte s (a := BitVec.ofNat 15 (0x4000 + i / 8)) (n := .w1) (by omega) (j := 0) (by decide)
    rw [ha, Nat.add_zero, readByte_storage hp hs, State.memByte_of_written hb] at hread
    exact hread
  have hlt : i % 8 < 8 := Nat.mod_lt _ (by decide)
  rw [← hbit, ← hbyte, BitVec.getLsbD_extractLsb', Nat.zero_add]
  simp [hlt]

/-- Settles O37: the bytes of a buffer read, the modules of MATRIX, and the unwritten bytes agent by agent. -/
theorem bufferReadsReturnTheirBytes : Obligations.BufferReadsReturnTheirBytes := by
  unfold Obligations.BufferReadsReturnTheirBytes
  refine ⟨fun s a n hp _ hlo => ⟨?_, fun j hj => ⟨fun hs => ⟨?_, fun b hb => State.memByte_of_written hb⟩, fun habove => ?_⟩⟩,
    fun s i m hp hi hm => readValue_module hp hi hm, fun s t hturn h a ha => ?_⟩
  · rw [readValue_buffer_toNat s n (by omega)]
    exact leValue_readBytes_lt s _ n
  · rw [readValue_buffer_byte s (by omega) hj, readByte_storage hp hs]
  · rw [readValue_buffer_byte s (by omega) hj, readByte_above s habove]
  · have hkeep := step_keepsUnwritten hturn h
    exact ⟨hkeep.1 a ha, hkeep.memByte_eq ha⟩

end Sys2Proof.Machine
end

section
/-! PROOFS. The encoding of the commands (30_encoding.md R085 to R089): which words the decoder takes, and what the ENGINE step of a
pending word does; and the host-only statements of HASM with the place of a label (R092). -/

namespace Sys2Proof.Machine

/-! ### The decoder -/

/-- The word of every command has RSV = 0 and the command's OP, and decodes to the command (R085, R088). -/
theorem encoding_statement (i : Instr) : Laws.Encoding.Statement i := by
  cases i with
  | nop => exact Laws.Encoding.nop
  | generate => exact Laws.Encoding.generate
  | lookup => exact Laws.Encoding.lookup
  | select => exact Laws.Encoding.select
  | rsenc => exact Laws.Encoding.rsenc

@[simp] theorem decode_encode (i : Instr) : decode (encode i) = .ok i := by
  obtain ⟨-, -, -, hdecode⟩ := encoding_statement i
  exact hdecode

/-- RSV and OP make up the whole word (R085). -/
theorem cmdRsv_append_cmdOp (w : Word) : cmdRsv w ++ cmdOp w = w :=
  (BitVec.extractLsb'_append_extractLsb'_eq_extractLsb' rfl).trans BitVec.extractLsb'_eq_self

theorem eq_encode_of_fields {w : Word} {i : Instr} (hrsv : cmdRsv w = 0) (hop : cmdOp w = opcode i) : w = encode i := by
  rw [← cmdRsv_append_cmdOp w, hrsv, hop]
  rfl

/-- The decoder takes a word only with RSV = 0 and the OP of the command it gives (R087). -/
theorem fields_of_decode_ok {w : Word} {i : Instr} (h : decode w = .ok i) : cmdRsv w = 0 ∧ cmdOp w = opcode i := by
  unfold decode at h
  split at h
  · cases h
  next hrsv =>
    refine ⟨Decidable.not_not.mp hrsv, ?_⟩
    split at h
    case h_6 => cases h
    all_goals
      next hop =>
        cases h
        exact BitVec.eq_of_toNat_eq hop

/-- The decoder is the inverse of the encoder: each command has one word (R088). -/
theorem decode_eq_ok_iff {w : Word} {i : Instr} : decode w = .ok i ↔ w = encode i := by
  constructor
  · intro h
    obtain ⟨hrsv, hop⟩ := fields_of_decode_ok h
    exact eq_encode_of_fields hrsv hop
  · rintro rfl
    exact decode_encode i

theorem decode_reservedBits {w : Word} (hrsv : cmdRsv w ≠ 0) : decode w = .error (.reservedBits (cmdOp w)) := if_pos hrsv

theorem decode_reservedOpcode {w : Word} (hrsv : cmdRsv w = 0) (hop : 5 ≤ (cmdOp w).toNat) :
    decode w = .error (.reservedOpcode (cmdOp w)) := by
  unfold decode
  rw [if_neg (not_not_intro hrsv)]
  split
  case h_6 => rfl
  all_goals omega

/-- Settles O4: the two directions of `decode_eq_ok_iff`. -/
theorem decodeAndEncodeAgree : Obligations.DecodeAndEncodeAgree := by
  unfold Obligations.DecodeAndEncodeAgree
  exact ⟨decode_encode, fun _ _ => decode_eq_ok_iff.mp⟩

/-- Settles O5: the five words are those of the commands, and the illegal ones fall under the two errors of the decoder. -/
theorem commandWordsDecodeAsTheMapSays : Obligations.CommandWordsDecodeAsTheMapSays := by
  unfold Obligations.CommandWordsDecodeAsTheMapSays
  exact ⟨decode_encode .nop, decode_encode .generate, decode_encode .lookup, decode_encode .select, decode_encode .rsenc,
    decode_reservedOpcode (by decide) (by decide), decode_reservedOpcode (by decide) (by decide),
    decode_reservedBits (by decide), decode_reservedBits (by decide)⟩

/-! ### The ENGINE step of a pending word -/

section
variable {s : State} {w : Word} (hp : s.pend = some w) (hw : s.wait = 0)
include hp hw

/-- A word pending with nothing left to wait has its ENGINE step next (40_commands.md R101). -/
theorem step_of_pending : step s = engineStep w s := by
  simp only [step, agentStep, turn_of_pending hp hw]

theorem step_of_decode_ok {i : Instr} (hd : decode w = .ok i) : step s = exec i s := by
  simp only [step_of_pending hp hw, engineStep, hd]

/-- A word that is no command reports IllegalCommand, code 4 (R089). -/
theorem step_of_decode_error {e : DecodeError} (hd : decode w = .error e) : step s = .next (s.afterError 4 e.info) := by
  simp only [step_of_pending hp hw, engineStep, hd]
  rfl

theorem step_of_opcode {i : Instr} (hrsv : cmdRsv w = 0) (hop : cmdOp w = opcode i) : step s = exec i s :=
  step_of_decode_ok hp hw (decode_eq_ok_iff.mpr (eq_encode_of_fields hrsv hop))

end

/-- Settles O2: RSV first, then one command for each OP of the map, then the reserved OPs. -/
theorem pendingWordIsDecodedInOrder : Obligations.PendingWordIsDecodedInOrder := by
  unfold Obligations.PendingWordIsDecodedInOrder
  intro s w hp hw
  exact ⟨fun hrsv => step_of_decode_error hp hw (decode_reservedBits hrsv),
    step_of_opcode (i := .nop) hp hw, step_of_opcode (i := .generate) hp hw, step_of_opcode (i := .lookup) hp hw,
    step_of_opcode (i := .select) hp hw, step_of_opcode (i := .rsenc) hp hw,
    fun hrsv hop => step_of_decode_error hp hw (decode_reservedOpcode hrsv hop)⟩

/-! ### The place of a label (R092) -/

/-- The search for a label is the library's search for the first line that carries it. -/
theorem findLabel_eq_findIdx? (l : Label) (prog : List HostLine) :
    findLabel l prog = prog.findIdx? fun line => line.labels.contains l := by
  induction prog with
  | nil => rfl
  | cons line rest ih => rw [findLabel, List.findIdx?_cons, ih]

theorem findLabel_eq_some {l : Label} {prog : List HostLine} {k : Nat} (h : findLabel l prog = some k) :
    (∃ line, prog[k]? = some line ∧ l ∈ line.labels) ∧ ∀ j line, j < k → prog[j]? = some line → l ∉ line.labels := by
  rw [findLabel_eq_findIdx?, List.findIdx?_eq_some_iff_getElem] at h
  obtain ⟨hk, hcarries, hfirst⟩ := h
  refine ⟨⟨prog[k], List.getElem?_eq_getElem hk, List.contains_iff_mem.mp hcarries⟩, fun j line hj hline hl => ?_⟩
  obtain ⟨_, rfl⟩ := List.getElem?_eq_some_iff.mp hline
  exact hfirst j hj (List.contains_iff_mem.mpr hl)

theorem findLabel_eq_none {l : Label} {prog : List HostLine} (h : findLabel l prog = none) : ∀ line ∈ prog, l ∉ line.labels := by
  rw [findLabel_eq_findIdx?, List.findIdx?_eq_none_iff] at h
  intro line hline hl
  exact Bool.false_ne_true ((h line hline).symm.trans (List.contains_iff_mem.mpr hl))

/-! ### The three ends of a branch -/

theorem hostBranch_not_taken {s : State} {taken : Bool} {l : Label} (h : taken = false) :
    hostBranch s taken l = .next (s.withHost s.host.advance) := by
  simp [hostBranch, h]

theorem hostBranch_taken {s : State} {taken : Bool} {l : Label} {k : Nat} (hk : findLabel l s.host.prog = some k)
    (h : taken = true) : hostBranch s taken l = .next (s.withHost { s.host with pos := k }) := by
  simp [hostBranch, h, hk]

theorem hostBranch_noSuchLabel {s : State} {taken : Bool} {l : Label} (hl : findLabel l s.host.prog = none)
    (h : taken = true) : hostBranch s taken l = .refused (.noSuchLabel l) := by
  simp [hostBranch, h, hl]

/-- Settles O40: the search for a label, and for each branch statement the end its condition picks. -/
theorem hostOnlyStatements : Obligations.HostOnlyStatements := by
  unfold Obligations.HostOnlyStatements
  refine ⟨fun l prog => ⟨fun k => findLabel_eq_some, findLabel_eq_none⟩, fun s r q v => ⟨rfl, rfl, rfl⟩,
    fun s r v l => ?goesOn, fun s r v l k hk => ?taken, fun s r v l hl => ?refused, fun s => rfl⟩
  case goesOn =>
    exact ⟨fun h => hostBranch_not_taken (decide_eq_false h), fun h => hostBranch_not_taken (decide_eq_false (not_not_intro h)),
      fun h => hostBranch_not_taken (decide_eq_false (not_not_intro h))⟩
  case taken =>
    exact ⟨fun h => hostBranch_taken hk (decide_eq_true h), fun h => hostBranch_taken hk (decide_eq_true h),
      fun h => hostBranch_taken hk (decide_eq_true h), hostBranch_taken hk rfl⟩
  case refused =>
    exact ⟨fun h => hostBranch_noSuchLabel hl (decide_eq_true h), fun h => hostBranch_noSuchLabel hl (decide_eq_true h),
      fun h => hostBranch_noSuchLabel hl (decide_eq_true h), hostBranch_noSuchLabel hl rfl⟩

end Sys2Proof.Machine
end

section
/-! PROOFS. The numbers and words the commands report (40_commands.md R102 to R105): the block table fits the result registers, what S1
selects (41_selector.md R112 to R115), what S7 returns (47_mask_finish.md R164 to R169), and the bytes RSENC stores. -/

namespace Sys2Proof.Machine

/-! ### The block table in the result registers -/

/-- The numbers of a block configuration fit their registers, and a symbol has at least 3 data codewords (41_selector.md R112, R113). -/
structure BlockCfg.FitsRegisters (c : BlockCfg) : Prop where
  nb1 : c.nb1 < 2 ^ 8
  nb2 : c.nb2 < 2 ^ 8
  d : c.d < 2 ^ 8
  e : c.e < 2 ^ 8
  dataMin : 3 ≤ dataCodewords c
  data : dataCodewords c < 2 ^ 16
  total : totalCodewords c < 2 ^ 16

/-- Every entry of the table does (R112). -/
theorem lookupCfg_fits {lvl v : Nat} (hl : levelLegal lvl = true) (hv1 : 1 ≤ v) (hv40 : v ≤ 40) :
    (lookupCfg lvl v).FitsRegisters := by
  have table : ∀ lvl ∈ List.range 5, ∀ v ∈ List.range 41, 1 ≤ lvl → 1 ≤ v →
      (lookupCfg lvl v).nb1 < 2 ^ 8 ∧ (lookupCfg lvl v).nb2 < 2 ^ 8 ∧ (lookupCfg lvl v).d < 2 ^ 8 ∧
      (lookupCfg lvl v).e < 2 ^ 8 ∧ 3 ≤ dataCodewords (lookupCfg lvl v) ∧
      dataCodewords (lookupCfg lvl v) < 2 ^ 16 ∧ totalCodewords (lookupCfg lvl v) < 2 ^ 16 := by decide +kernel
  obtain ⟨hl1, hl4⟩ := levelLegal_iff.mp hl
  obtain ⟨hnb1, hnb2, hd, he, hmin, hdata, htotal⟩ :=
    table lvl (List.mem_range.mpr (by omega)) v (List.mem_range.mpr (by omega)) hl1 hv1
  exact ⟨hnb1, hnb2, hd, he, hmin, hdata, htotal⟩

/-- The limit of R133 is the capacity of R114 (43_codeword.md R133). -/
theorem BlockCfg.FitsRegisters.limit_eq {c : BlockCfg} (hc : c.FitsRegisters) (v : Nat) :
    dataCodewords c - 2 - (if v > 9 then 1 else 0) = capacityOf v c := by
  have hmin := hc.dataMin
  unfold capacityOf
  split <;> split <;> omega

/-- So GENERATE encodes min(n, CAP) bytes. -/
theorem BlockCfg.FitsRegisters.encodedLength_eq {c : BlockCfg} (hc : c.FitsRegisters) (n v : Nat) :
    encodedLength n v c = min n (capacityOf v c) :=
  congrArg (min n) (hc.limit_eq v)

/-- A capacity fits its register. -/
theorem BlockCfg.FitsRegisters.capacity_lt {c : BlockCfg} (hc : c.FitsRegisters) (v : Nat) : capacityOf v c < 2 ^ 16 := by
  have hdata := hc.data
  have hmin := hc.dataMin
  unfold capacityOf
  split <;> omega

/-- No version holds more than version 40 (R114). -/
theorem capacity_le_capacity_40 {lvl v : Nat} (hl : levelLegal lvl = true) (hv1 : 1 ≤ v) (hv40 : v ≤ 40) :
    capacityOf v (lookupCfg lvl v) ≤ capacityOf 40 (lookupCfg lvl 40) := by
  rw [← (lookupCfg_fits hl hv1 hv40).limit_eq]
  obtain ⟨hl1, hl4⟩ := levelLegal_iff.mp hl
  exact dataCodewords_le_capacity_40 lvl (List.mem_range.mpr (by omega)) v (List.mem_range.mpr (by omega)) hl1 hv1

/-- The shared result registers hold the numbers of version v with configuration c, unreduced (40_commands.md R102 to R104). -/
structure Results.Reports (r : Results) (v : Nat) (c : BlockCfg) : Prop where
  version : r.version.toNat = v
  width : r.width.toNat = 17 + 4 * v
  nb1 : r.nb1.toNat = c.nb1
  nb2 : r.nb2.toNat = c.nb2
  dbLen : r.dbLen.toNat = c.d
  ebLen : r.ebLen.toNat = c.e
  capacity : r.capacity.toNat = capacityOf v c
  dataCw : r.dataCw.toNat = dataCodewords c
  totalCw : r.totalCw.toNat = totalCodewords c

/-- The write-back of a version of the table leaves the registers so. -/
theorem Results.withSymbol_reports (r : Results) {v : Nat} {c : BlockCfg} (hv40 : v ≤ 40) (hc : c.FitsRegisters) :
    (r.withSymbol v c).Reports v c where
  version := Nat.mod_eq_of_lt (by omega)
  width := Nat.mod_eq_of_lt (show 17 + 4 * v < 2 ^ 8 by omega)
  nb1 := Nat.mod_eq_of_lt hc.nb1
  nb2 := Nat.mod_eq_of_lt hc.nb2
  dbLen := Nat.mod_eq_of_lt hc.d
  ebLen := Nat.mod_eq_of_lt hc.e
  capacity := Nat.mod_eq_of_lt (hc.capacity_lt v)
  dataCw := Nat.mod_eq_of_lt hc.data
  totalCw := Nat.mod_eq_of_lt hc.total

/-- Registers that report a version of the table meet the invariant of VERSION and WIDTH (10_state.md R040). -/
theorem Results.Reports.symbolRegsLegal {r : Results} {v : Nat} {c : BlockCfg} (h : r.Reports v c) (hv1 : 1 ≤ v)
    (hv40 : v ≤ 40) : symbolRegsLegal r = true := by
  simp [Machine.symbolRegsLegal, symbolWidth, h.version, h.width, hv1, hv40]

/-! ### The selection -/

/-- Where the walk of R115 finds a version that holds the input, that version holds it and none tried before does. -/
theorem selectFrom_of_fits {n lvl fuel v : Nat} (h : (selectFrom n lvl fuel v).fits = true) :
    n ≤ capacityOf (selectFrom n lvl fuel v).v (selectFrom n lvl fuel v).cfg ∧
    ∀ u, v ≤ u → u < (selectFrom n lvl fuel v).v → capacityOf u (lookupCfg lvl u) < n := by
  induction fuel generalizing v with
  | zero => cases h
  | succ fuel ih =>
    unfold selectFrom at h ⊢
    by_cases hn : n ≤ capacityOf v (lookupCfg lvl v)
    · simp only [hn, if_true]
      exact ⟨trivial, fun u hu hlt => absurd hlt (by omega)⟩
    · simp only [hn, if_false] at h ⊢
      obtain ⟨hfit, hbefore⟩ := ih h
      refine ⟨hfit, fun u hu hlt => ?_⟩
      rcases Nat.eq_or_lt_of_le hu with rfl | hu
      · omega
      · exact hbefore u hu hlt

/-- Where it finds none, it ends at version 40, and none of those tried holds the input. -/
theorem selectFrom_of_not_fits {n lvl fuel v : Nat} (h : (selectFrom n lvl fuel v).fits = false) :
    (selectFrom n lvl fuel v).v = 40 ∧ ∀ u, v ≤ u → u < v + fuel → capacityOf u (lookupCfg lvl u) < n := by
  induction fuel generalizing v with
  | zero => exact ⟨rfl, fun u hu hlt => absurd hlt (by omega)⟩
  | succ fuel ih =>
    unfold selectFrom at h ⊢
    by_cases hn : n ≤ capacityOf v (lookupCfg lvl v)
    · simp [hn] at h
    · simp only [hn, if_false] at h ⊢
      obtain ⟨h40, htried⟩ := ih h
      refine ⟨h40, fun u hu hlt => ?_⟩
      rcases Nat.eq_or_lt_of_le hu with rfl | hu
      · omega
      · exact htried u hu (by omega)

/-- The input fits exactly where version 40 holds it (R115). -/
theorem selection_fits_iff {s : State} (hl : levelLegal s.lvl = true) :
    s.selection.fits = true ↔ s.inputLen ≤ capacityOf 40 (lookupCfg s.lvl 40) := by
  constructor
  · intro h
    obtain ⟨hv1, hv40, hcfg⟩ := selection_spec s
    have hfit := (selectFrom_of_fits h).1
    change _ ≤ capacityOf s.selection.v s.selection.cfg at hfit
    rw [hcfg] at hfit
    exact Nat.le_trans hfit (capacity_le_capacity_40 hl hv1 hv40)
  · intro h
    refine eq_true_of_ne_false fun hfits => ?_
    have htried := (selectFrom_of_not_fits hfits).2 40 (by omega) (by omega)
    omega

/-- The version selected is the smallest that holds the input, and version 40 where none does (R115). -/
theorem selection_smallest {s : State} (hl : levelLegal s.lvl = true) :
    (s.inputLen ≤ capacityOf 40 (lookupCfg s.lvl 40) →
      s.inputLen ≤ capacityOf s.selection.v (lookupCfg s.lvl s.selection.v) ∧
      ∀ u, 1 ≤ u → u < s.selection.v → capacityOf u (lookupCfg s.lvl u) < s.inputLen) ∧
    (capacityOf 40 (lookupCfg s.lvl 40) < s.inputLen → s.selection.v = 40) := by
  refine ⟨fun h => ?_, fun h => ?_⟩
  · obtain ⟨-, -, hcfg⟩ := selection_spec s
    rw [← hcfg]
    exact selectFrom_of_fits ((selection_fits_iff hl).mpr h)
  · refine (selectFrom_of_not_fits (Bool.eq_false_iff.mpr fun hfits => ?_)).1
    have := (selection_fits_iff hl).mp hfits
    omega

/-- The numbers of the configuration selected fit their registers. -/
theorem selection_cfg_fits {s : State} (hl : levelLegal s.lvl = true) : s.selection.cfg.FitsRegisters := by
  obtain ⟨hv1, hv40, hcfg⟩ := selection_spec s
  exact hcfg ▸ lookupCfg_fits hl hv1 hv40

/-! ### What S7 returns -/

/-- The finisher reports the format word of its level and mask (47_mask_finish.md R165, R168). -/
@[simp] theorem finishWith_fmt (p : Config.Params) (pre excl : Bitmap) (v lvl k : Nat) (scores : List Nat) :
    (finishWith p pre excl v lvl k scores).fmt = Rom.format (k + (lvl - 1) * 8) := by
  unfold finishWith; dsimp only; split <;> rfl

/-- The finisher reports the version word of a version above 6, else 0 (R167, R168). -/
@[simp] theorem finishWith_ver (p : Config.Params) (pre excl : Bitmap) (v lvl k : Nat) (scores : List Nat) :
    (finishWith p pre excl v lvl k scores).ver = if v ≥ 7 then Rom.vinfo v else 0 := by
  unfold finishWith; dsimp only; split <;> rfl

/-- A candidate leaves the mask kept, or puts its own in place (R164). -/
theorem betterMask_index (acc : Option Nat × Nat) (cand : Nat × Nat) :
    (betterMask acc cand).2 = acc.2 ∨ (betterMask acc cand).2 = cand.2 := by
  unfold betterMask
  split
  · exact .inr rfl
  · split
    · exact .inr rfl
    · exact .inl rfl

/-- So the search keeps the index of a score, or mask 0, whatever INITIAL_BEST is. -/
theorem bestMask_lt (initialBest : Option Nat) {scores : List Nat} (h : 0 < scores.length) :
    bestMask initialBest scores < scores.length := by
  refine List.foldlRecOn (motive := fun acc : Option Nat × Nat => acc.2 < scores.length) scores.zipIdx betterMask h
    fun acc hacc cand hcand => ?_
  rcases betterMask_index acc cand with heq | heq <;> rw [heq]
  · exact hacc
  · exact (List.mem_zipIdx' hcand).1

/-- What S7 returns for GENERATE at a level and a version, from an override or a search (R164 to R169). -/
structure Finished.IsSymbolOf (fin : Finished) (v lvl : Nat) (override : Option Nat) : Prop where
  mask : fin.mask < 8
  fmt : fin.fmt = Rom.format (fin.mask + (lvl - 1) * 8)
  ver : fin.ver = if v ≥ 7 then Rom.vinfo v else 0
  overridden : ∀ k, override = some k → fin.mask = k ∧ fin.scores = []

/-- The finisher with a legal override, or none. -/
theorem maskFinish_isSymbolOf (p : Config.Params) (mod excl : Bitmap) (v lvl : Nat) {override : Option Nat}
    (h : ∀ k, override = some k → k < 8) : (maskFinish p mod excl v lvl override).IsSymbolOf v lvl override := by
  cases override with
  | some k => constructor <;> simp [maskFinish, h k rfl]
  | none =>
    have hlt (pre : Bitmap) : bestMask p.initialBest (maskScores p excl (symbolWidth v) pre) < 8 := by
      rw [← maskScores_length p excl (symbolWidth v) pre]
      exact bestMask_lt _ (by rw [maskScores_length]; decide)
    constructor <;> simp [maskFinish, hlt]

/-- An override GENERATE accepts is one of the eight masks (60_exceptions.md R184). -/
theorem maskOverride_lt {s : State} (ho : s.overrideIllegal = false) {k : Nat} (hk : s.maskOverride = some k) : k < 8 := by
  simp only [State.overrideIllegal, State.maskOverride] at ho hk
  split at hk
  next hen =>
    cases hk
    simp only [hen, Bool.true_and, decide_eq_false_iff_not] at ho
    omega
  next => cases hk

/-- What the stages of GENERATE return. -/
theorem finished_isSymbolOf {s : State} (ho : s.overrideIllegal = false) :
    s.finished.IsSymbolOf s.selection.v s.lvl s.maskOverride :=
  maskFinish_isSymbolOf _ _ _ _ _ fun _ hk => maskOverride_lt ho hk

/-- Where no score was made SCORE is 0 (R169). -/
theorem scoreRegs_nil : scoreRegs [] = Vector.replicate 8 0 := by decide

/-! ### The bytes RSENC stores -/

/-- A round of the division leaves e bytes (44_reed_solomon.md R145). -/
@[simp] theorem rsRound_length (gen : List Nat) (e : Nat) (r : List Byte) (b : Byte) : (rsRound gen e r b).length = e := by
  simp [rsRound]

/-- So does the division. -/
@[simp] theorem rsDivide_length (data : List Byte) (e : Nat) : (rsDivide data e).length = e :=
  List.foldlRecOn (motive := fun r : List Byte => r.length = e) data _ List.length_replicate fun _ _ _ _ => rsRound_length ..

/-- RSENC stores all of RSOUT (40_commands.md R105). -/
@[simp] theorem rsoutBytes_length (r : List Byte) (e : Nat) : (rsoutBytes r e).length = Config.rsoutSize := by
  simp [rsoutBytes]

/-- Byte j of RSOUT after RSENC: the remainder's, and 0 above it (R105, 44_reed_solomon.md R147). -/
theorem rsoutBytes_getElem? (r : List Byte) (e : Nat) {j : Nat} (hj : j < Config.rsoutSize) :
    (rsoutBytes r e)[j]? = some (if j < e then r.getD j 0 else 0) := by
  simp [rsoutBytes, hj]

end Sys2Proof.Machine
end

section
/-! PROOFS. The invariant (State.Inv): the operations on the state keep it, one lemma for each, and so does every step. -/

namespace Sys2Proof.Machine

/-! ### Buffers written whole -/

/-- A buffer none of whose bytes a step changes stays written whole or unwritten. -/
theorem writtenTogether_congr {m m' : Memory} {b n : Nat}
    (h : ∀ k < n, Memory.get? m' (b + k) = Memory.get? m (b + k)) : writtenTogether m' b n = writtenTogether m b n := by
  have hsame (p : Option Byte → Bool) :
      ((List.range n).all fun k => p (Memory.get? m' (b + k))) = (List.range n).all fun k => p (Memory.get? m (b + k)) := by
    rw [Bool.eq_iff_iff, List.all_eq_true, List.all_eq_true]
    exact forall₂_congr fun k hk => by rw [h k (List.mem_range.mp hk)]
  unfold writtenTogether
  rw [hsame Option.isSome, hsame Option.isNone]

/-- A write outside a buffer keeps it so. -/
theorem writtenTogether_write_outside {m : Memory} {a b n : Nat} {bs : List Byte} (h : b + n ≤ a ∨ a + bs.length ≤ b) :
    writtenTogether (Memory.write m a bs) b n = writtenTogether m b n :=
  writtenTogether_congr fun k hk => Memory.get?_write_outside (by omega)

/-- A write of the whole buffer writes it whole. -/
theorem writtenTogether_write_whole (m : Memory) (b : Nat) (bs : List Byte) :
    writtenTogether (Memory.write m b bs) b bs.length = true := by
  unfold writtenTogether
  rw [Bool.or_eq_true, List.all_eq_true]
  refine .inl fun k hk => ?_
  have hlt := List.mem_range.mp hk
  rw [Memory.get?_write_inside (Nat.le_add_right b k) (by omega), Nat.add_sub_cancel_left, List.getElem?_eq_getElem hlt]
  rfl

/-! ### The memory part -/

/-- The part of the invariant that speaks of the memory alone. -/
structure Memory.Inv (m : Memory) : Prop where
  wf : Memory.wf m = true
  rsout : writtenTogether m Config.rsoutBase Config.rsoutSize = true
  matrix : writtenTogether m Config.matrixBase Config.matrixBytes = true

theorem State.Inv.mem {s : State} (h : s.Inv) : Memory.Inv s.mem := ⟨h.memWf, h.rsoutWhole, h.matrixWhole⟩

/-- A write inside INBUF keeps it. -/
theorem Memory.Inv.write_inbuf {m : Memory} (h : Memory.Inv m) {a : Nat} {bs : List Byte} (hlo : 0x1000 ≤ a)
    (hhi : a + bs.length ≤ 0x2000) : Memory.Inv (Memory.write m a bs) where
  wf := Memory.wf_write h.wf fun b hb hb' => by
    simp only [isStorage, Bool.or_eq_true, isInbuf_iff]
    exact .inl (.inl (by omega))
  rsout := (writtenTogether_write_outside (.inr hhi)).trans h.rsout
  matrix := (writtenTogether_write_outside (.inr (Nat.le_trans hhi (by decide)))).trans h.matrix

/-- A write of all of RSOUT keeps it. -/
theorem Memory.Inv.write_rsout {m : Memory} (h : Memory.Inv m) {bs : List Byte} (hbs : bs.length = Config.rsoutSize) :
    Memory.Inv (Memory.write m Config.rsoutBase bs) where
  wf := Memory.wf_write h.wf fun a hlo hhi => by
    simp [isStorage, isRsout, hlo, hbs ▸ hhi]
  rsout := hbs ▸ writtenTogether_write_whole m _ bs
  matrix := (writtenTogether_write_outside (.inr (by rw [hbs]; decide))).trans h.matrix

/-- A write of all of MATRIX keeps it. -/
theorem Memory.Inv.write_matrix {m : Memory} (h : Memory.Inv m) {bs : List Byte} (hbs : bs.length = Config.matrixBytes) :
    Memory.Inv (Memory.write m Config.matrixBase bs) where
  wf := Memory.wf_write h.wf fun a hlo hhi => by
    simp [isStorage, isMatrix, hlo, hbs ▸ hhi]
  rsout := (writtenTogether_write_outside (.inl (by decide))).trans h.rsout
  matrix := hbs ▸ writtenTogether_write_whole m _ bs

/-- The memory after a reset, nothing written, has it. -/
theorem Memory.inv_nil : Memory.Inv [] where
  wf := Memory.wf_nil
  rsout := by simp [writtenTogether, Memory.get?]
  matrix := by simp [writtenTogether, Memory.get?]

/-- Another memory with its part of the invariant may stand in for the memory of a state. -/
theorem State.Inv.withMem {s : State} (h : s.Inv) {m : Memory} (hm : Memory.Inv m) : { s with mem := m }.Inv :=
  { h with memWf := hm.wf, rsoutWhole := hm.rsout, matrixWhole := hm.matrix }

/-! ### Updates the invariant does not see, and the host's -/

/-- The invariant speaks of the memory, STATUS, PEND and the results alone. -/
theorem State.Inv.congr {s t : State} (h : s.Inv) (hmem : t.mem = s.mem) (hstatus : t.status = s.status)
    (hpend : t.pend = s.pend) (hres : t.res = s.res) : t.Inv := by
  constructor
  · exact hmem ▸ h.memWf
  · exact hmem ▸ h.rsoutWhole
  · exact hmem ▸ h.matrixWhole
  · exact hstatus ▸ h.reportLegal
  · simpa only [pendingReportClear, hstatus, hpend] using h.pendingClear
  · exact hres ▸ h.symbolLegal
  · simpa only [scoresLegal, hstatus, hres] using h.scoresClear
  · exact hres ▸ h.formatLegal
  · exact hres ▸ h.versionLegal

/-- Acceptance of a command clears its report (40_commands.md R100). -/
theorem State.Inv.accept {s : State} (h : s.Inv) (c : Word) : (s.accept c).Inv :=
  { h with reportLegal := rfl, pendingClear := rfl }

/-- A write to STATUS can only clear DONE and OVERRUN (10_state.md R037). -/
theorem State.Inv.writeStatus {s : State} (h : s.Inv) (v : Word) : (s.writeStatus v).Inv := by
  refine { h with pendingClear := ?_ }
  have hclear := h.pendingClear
  simp only [pendingReportClear, State.writeStatus_status, State.writeStatus_pend, Bool.or_eq_true, Bool.and_eq_true,
    Bool.not_eq_true'] at hclear ⊢
  refine hclear.imp_right fun ⟨⟨hdone, herr⟩, hinfo⟩ => ⟨⟨?_, herr⟩, hinfo⟩
  rw [hdone, Bool.false_and]

/-- A dropped write sets OVERRUN only (70_reset_and_hazards.md R205). -/
theorem State.Inv.dropWrite {s : State} (h : s.Inv) : s.dropWrite.Inv := { h with }

/-- Every MemWrite keeps the invariant. -/
theorem State.Inv.memWrite {s t : State} (h : s.Inv) {a : Addr} {n : Width} {v : Word} (hw : s.memWrite a n v = some t) :
    t.Inv := by
  obtain ⟨hl, rfl | ⟨-, rfl⟩ | ⟨-, rfl⟩ | ⟨-, ⟨-, rfl⟩ | ⟨-, rfl⟩ | ⟨-, rfl⟩ | ⟨-, rfl⟩ | ⟨-, rfl⟩ | ⟨hr, rfl⟩⟩⟩ := memWrite_some hw
  · exact h
  · exact h.writeStatus v
  · exact h.dropWrite
  · exact h.congr rfl rfl rfl rfl
  · exact h.accept v
  · exact h.congr rfl rfl rfl rfl
  · exact h.congr rfl rfl rfl rfl
  · exact h.congr rfl rfl rfl rfl
  · obtain ⟨hlo, hhi⟩ := inbuf_access hr hl
    exact h.withMem (h.mem.write_inbuf hlo (by rwa [leBytes_length]))

/-- Every HOST step keeps the invariant. -/
theorem State.Inv.hostStep {s t : State} (h : s.Inv) (hs : hostStep s = .next t) : t.Inv := by
  obtain ⟨u, g, rfl, -, rfl | rfl | ⟨n, a, v, -, hu⟩⟩ := hostStep_next hs
  · exact h.congr rfl rfl rfl rfl
  · exact h.congr rfl rfl rfl rfl
  · exact (h.memWrite hu).congr rfl rfl rfl rfl

/-- A reset brings the invariant about, whatever the state was (R200, R202). -/
theorem State.platformReset_inv (s : State) : s.platformReset.Inv where
  memWf := Memory.inv_nil.wf
  rsoutWhole := Memory.inv_nil.rsout
  matrixWhole := Memory.inv_nil.matrix
  reportLegal := rfl
  pendingClear := rfl
  symbolLegal := rfl
  scoresClear := rfl
  formatLegal := rfl
  versionLegal := rfl

/-! ### The ENGINE's updates -/

/-- Completion leaves no command pending (40_commands.md R101). -/
theorem State.Inv.complete {s : State} (h : s.Inv) : s.complete.Inv := { h with pendingClear := rfl }

/-- An error report of 60_exceptions.md R181 keeps the invariant. -/
theorem State.Inv.afterError {s : State} (h : s.Inv) {err : BitVec 4} {info : Byte} (hlegal : errorReportLegal err info = true) :
    (s.afterError err info).Inv :=
  { h with reportLegal := hlegal, pendingClear := rfl }

/-- The result registers of a version of the table keep it. -/
theorem State.Inv.writeLookup {s : State} (h : s.Inv) {v : Nat} {c : BlockCfg} (hv1 : 1 ≤ v) (hv40 : v ≤ 40)
    (hc : c.FitsRegisters) : (s.writeLookup v c).Inv :=
  { h with symbolLegal := (s.res.withSymbol_reports hv40 hc).symbolRegsLegal hv1 hv40 }

/-- SELECT writes EFFLEN and TRUNCATED beside them, which the invariant does not see (R104). -/
theorem State.Inv.writeSelection {s : State} (h : s.Inv) {sel : Selection} (hv1 : 1 ≤ sel.v) (hv40 : sel.v ≤ 40)
    (hc : sel.cfg.FitsRegisters) : (s.writeSelection sel).Inv :=
  { h with symbolLegal := (s.res.withSymbol_reports hv40 hc).symbolRegsLegal hv1 hv40 }

/-- RSENC writes all of RSOUT (R105). -/
theorem State.Inv.writeRsout {s : State} (h : s.Inv) (r : List Byte) (e : Nat) : (s.writeRsout r e).Inv :=
  h.withMem (h.mem.write_rsout (rsoutBytes_length r e))

/-- MASKSEL and FMTWORD after GENERATE (47_mask_finish.md R165, R168). -/
theorem formatRegsLegal_of_format {r : Results} {lvl : Nat} (hl : levelLegal lvl = true)
    (h : r.fmtWord = Rom.format (r.maskSel.toNat + (lvl - 1) * 8)) : formatRegsLegal r = true := by
  obtain ⟨hl1, hl4⟩ := levelLegal_iff.mp hl
  unfold formatRegsLegal
  rw [Bool.or_eq_true, List.any_eq_true]
  exact .inr ⟨lvl, by simp only [List.mem_cons]; omega, decide_eq_true h⟩

/-- VERWORD after GENERATE (R167, R168). -/
theorem versionWordLegal_of_version {r : Results} {v : Nat} (hv40 : v ≤ 40)
    (h : r.verWord = if v ≥ 7 then Rom.vinfo v else 0) : versionWordLegal r = true := by
  unfold versionWordLegal
  split at h
  · rw [Bool.or_eq_true, List.any_eq_true]
    exact .inr ⟨v - 7, List.mem_range.mpr (by omega), decide_eq_true (by rwa [Nat.add_sub_cancel' ‹_›])⟩
  · simp [h]

/-- MASKSEL holds the mask S7 kept, unreduced (10_state.md R040). -/
theorem generated_maskSel {s : State} (ho : s.overrideIllegal = false) : s.generated.res.maskSel.toNat = s.finished.mask :=
  Nat.mod_eq_of_lt (finished_isSymbolOf ho).mask

/-- An override leaves SCORE 0 (R169). -/
theorem generated_score_of_override {s : State} (ho : s.overrideIllegal = false) {k : Nat} (hk : s.maskOverride = some k) :
    s.generated.res.score = Vector.replicate 8 0 := by
  rw [← scoreRegs_nil, ← ((finished_isSymbolOf ho).overridden k hk).2]
  rfl

/-- FMTWORD is the format word of the level and MASKSEL (R165, R168). -/
theorem generated_fmtWord {s : State} (ho : s.overrideIllegal = false) :
    s.generated.res.fmtWord = Rom.format (s.generated.res.maskSel.toNat + (s.lvl - 1) * 8) := by
  rw [generated_maskSel ho]
  exact (finished_isSymbolOf ho).fmt

/-- The symbol GENERATE writes keeps the invariant (40_commands.md R102). -/
theorem State.Inv.generated {s : State} (h : s.Inv) (hl : levelLegal s.lvl = true) (ho : s.overrideIllegal = false) :
    s.generated.Inv := by
  obtain ⟨hv1, hv40, -⟩ := selection_spec s
  have hmem := h.mem.write_matrix (packMatrix_length s.finished.mod (symbolWidth s.selection.v))
  refine { h with
    memWf := hmem.wf
    rsoutWhole := hmem.rsout
    matrixWhole := hmem.matrix
    symbolLegal := (s.res.withSymbol_reports hv40 (selection_cfg_fits hl)).symbolRegsLegal hv1 hv40
    scoresClear := ?scores
    formatLegal := formatRegsLegal_of_format hl (generated_fmtWord ho)
    versionLegal := versionWordLegal_of_version hv40 (finished_isSymbolOf ho).ver }
  case scores =>
    unfold scoresLegal
    cases hk : s.maskOverride with
    | none => simp [hk]
    | some k => rw [Bool.or_eq_true, decide_eq_true_eq]; exact .inr (generated_score_of_override ho hk)

/-! ### Every step -/

/-- The OPs 0x0 to 0x4 are those of the five commands (30_encoding.md R088). -/
theorem exists_opcode {op : BitVec 4} (h : op.toNat < 5) : ∃ i, op = opcode i := by
  obtain h | h | h | h | h : op.toNat = 0 ∨ op.toNat = 1 ∨ op.toNat = 2 ∨ op.toNat = 3 ∨ op.toNat = 4 := by omega
  · exact ⟨.nop, BitVec.eq_of_toNat_eq h⟩
  · exact ⟨.generate, BitVec.eq_of_toNat_eq h⟩
  · exact ⟨.lookup, BitVec.eq_of_toNat_eq h⟩
  · exact ⟨.select, BitVec.eq_of_toNat_eq h⟩
  · exact ⟨.rsenc, BitVec.eq_of_toNat_eq h⟩

/-- A word that is no command reports OP | 0x10, or an OP from 0x5 (R087). -/
theorem info_of_decode_error {w : Word} {e : DecodeError} (h : decode w = .error e) : 5 ≤ e.info.toNat ∧ e.info.toNat ≤ 31 := by
  have hbits : ∀ op, 5 ≤ (DecodeError.reservedBits op).info.toNat ∧ (DecodeError.reservedBits op).info.toNat ≤ 31 := by decide
  have hop : ∀ op, (DecodeError.reservedOpcode op).info.toNat = op.toNat := by decide
  by_cases hrsv : cmdRsv w = 0
  · rcases Nat.lt_or_ge (cmdOp w).toNat 5 with hlt | hge
    · obtain ⟨i, hi⟩ := exists_opcode hlt
      rw [eq_encode_of_fields hrsv hi, decode_encode] at h
      cases h
    · rw [decode_reservedOpcode hrsv hge] at h
      cases h
      rw [hop]
      omega
  · rw [decode_reservedBits hrsv] at h
    cases h
    exact hbits _

/-- IllegalCommand with such a byte is a report of R181. -/
theorem errorReportLegal_illegal {info : Byte} (hlo : 5 ≤ info.toNat) (hhi : info.toNat ≤ 31) : errorReportLegal 4 info = true := by
  simp [errorReportLegal, hlo, hhi]

/-- So is every error a command raises (60_exceptions.md R182). -/
theorem errorReportLegal_of_mem {e : EngineError}
    (h : e ∈ [.invalidOption 1, .invalidOption 2, .invalidOption 3, .invalidOption 4, .invalidOption 5, .capacityExceeded]) :
    errorReportLegal e.code e.info = true := by
  revert e
  decide

/-- Every command keeps the invariant. -/
theorem State.Inv.exec {s t : State} (h : s.Inv) {i : Instr} (hi : exec i s = .next t) : t.Inv := by
  rcases exec_next hi with ⟨e, he, rfl⟩ | ⟨-, rfl⟩ | ⟨-, hl, ho, -, rfl⟩ | ⟨-, hl, hv1, hv40, rfl⟩ | ⟨-, hl, -, rfl⟩ | ⟨-, -, -, -, rfl⟩
  · exact h.afterError (errorReportLegal_of_mem he)
  · exact h.complete
  · exact (h.generated hl ho).complete
  · exact (h.writeLookup hv1 hv40 (lookupCfg_fits hl hv1 hv40)).complete
  · obtain ⟨hv1, hv40, -⟩ := selection_spec s
    exact (h.writeSelection hv1 hv40 (selection_cfg_fits hl)).complete
  · exact (h.writeRsout _ _).complete

/-- Every ENGINE step keeps the invariant. -/
theorem State.Inv.engineStep {s t : State} (h : s.Inv) {w : Word} (hs : engineStep w s = .next t) : t.Inv := by
  rcases engineStep_next hs with ⟨e, he, rfl⟩ | ⟨i, -, hi⟩
  · obtain ⟨hlo, hhi⟩ := info_of_decode_error he
    exact h.afterError (errorReportLegal_illegal hlo hhi)
  · exact h.exec hi

/-- Settles O22, agent by agent. -/
theorem everyStepKeepsTheInvariant : Obligations.EveryStepKeepsTheInvariant := by
  unfold Obligations.EveryStepKeepsTheInvariant
  intro s t h hs
  rcases step_next hs with ⟨w, -, -, he⟩ | ⟨-, rfl⟩ | ⟨-, hh⟩
  · exact h.engineStep he
  · exact s.platformReset_inv.congr rfl rfl rfl rfl
  · exact (h.congr rfl rfl rfl rfl : s.tick.Inv).hostStep hh

end Sys2Proof.Machine
end

section
/-! PROOFS. The five commands whole (40_commands.md R102 to R107): for each its errors in order, its results, and its frame. -/

namespace Sys2Proof.Machine

/-! ### The two ends of a command -/

/-- A rule that succeeds: its result state, completed (40_commands.md R101). -/
theorem exec_of_rule_ok {i : Instr} {s t : State} (h : commandRule i s = .ok t) : exec i s = .next t.complete := by
  rw [exec_eq_finishCommand, h, finishCommand_ok]

/-- A rule that raises: nothing but the report (R107, 60_exceptions.md R183). -/
theorem exec_of_rule_error {i : Instr} {s : State} {e : EngineError} (h : commandRule i s = .error e) :
    exec i s = .next (s.afterError e.code e.info) := by
  rw [exec_eq_finishCommand, h, finishCommand_error]

/-- The errors a command can report (60_exceptions.md R182). -/
def errorRow : Instr → List EngineError
  | .nop => []
  | .generate => [.invalidOption 1, .invalidOption 2, .capacityExceeded]
  | .lookup => [.invalidOption 1, .invalidOption 3]
  | .select => [.invalidOption 1, .capacityExceeded]
  | .rsenc => [.invalidOption 4, .invalidOption 5]

/-- A rule that raises raises an error of its command's row. -/
theorem commandRule_error_mem {i : Instr} {s : State} {e : EngineError} (h : commandRule i s = .error e) : e ∈ errorRow i := by
  cases i with
  | nop => cases h
  | generate => rcases runGenerate_cases s with hr | hr | hr | ⟨-, -, -, hr⟩ <;> cases hr.symm.trans h <;> simp [errorRow]
  | lookup => rcases runLookup_cases s with hr | hr | ⟨-, -, -, hr⟩ <;> cases hr.symm.trans h <;> simp [errorRow]
  | select => rcases runSelect_cases s with hr | hr | ⟨-, -, hr⟩ <;> cases hr.symm.trans h <;> simp [errorRow]
  | rsenc => rcases runRsenc_cases s with hr | hr | ⟨-, -, -, hr⟩ <;> cases hr.symm.trans h <;> simp [errorRow]

/-- Settles O12: a rule that succeeds leaves ERR, so the rule raised. -/
theorem erroringCommandChangesOnlyTheReport : Obligations.ErroringCommandChangesOnlyTheReport := by
  unfold Obligations.ErroringCommandChangesOnlyTheReport
  intro i s t h0 hexec herr
  cases hr : commandRule i s with
  | ok u =>
    cases (exec_of_rule_ok hr).symm.trans hexec
    have hkept : u.status.err = s.status.err := by rw [status_of_commandRule_ok hr]; rfl
    exact absurd (hkept.trans h0) herr
  | error e =>
    cases (exec_of_rule_error hr).symm.trans hexec
    refine ⟨rfl, ?_⟩
    have hmem := List.mem_map_of_mem (f := fun e : EngineError => (e.code, e.info)) (commandRule_error_mem hr)
    cases i <;> exact hmem

/-! ### NOP, and completion -/

/-- Settles O1: NOP has no rule but completion, and the decoder refuses a word with RSV ≠ 0. -/
theorem nopOnlyCompletes : Obligations.NopOnlyCompletes := by
  unfold Obligations.NopOnlyCompletes
  refine ⟨fun s => exec_of_rule_ok (i := .nop) rfl, fun s => exec_of_rule_ok (i := .nop) rfl, fun s w hp hw hop hrsv => ?_⟩
  rw [step_of_decode_error hp hw (decode_reservedBits hrsv), hop]
  rfl

/-- Settles O3. -/
theorem stepRunsTheDecodedCommand : Obligations.StepRunsTheDecodedCommand := by
  unfold Obligations.StepRunsTheDecodedCommand
  exact fun s w i hp hw hd _ => step_of_decode_ok hp hw hd

/-- However a command rule ends, the ENGINE step completes (R101). -/
theorem finishCommand_completes (s : State) (r : Except EngineError State) :
    ∃ t, finishCommand s r = .next t ∧ t.pend = none ∧ t.status.done = true := by
  cases r with
  | ok u => exact ⟨_, finishCommand_ok s u, rfl, rfl⟩
  | error e => exact ⟨_, finishCommand_error s e, rfl, rfl⟩

/-- Settles O11: a command ends as its rule does, and any other word with IllegalCommand. -/
theorem everyEngineStepCompletes : Obligations.EveryEngineStepCompletes := by
  unfold Obligations.EveryEngineStepCompletes
  refine ⟨fun s w hp hw => ?_, fun s w h => (turn_engine h).1⟩
  cases hd : decode w with
  | ok i => rw [step_of_decode_ok hp hw hd, exec_eq_finishCommand]; exact finishCommand_completes s _
  | error e => exact ⟨_, step_of_decode_error hp hw hd, rfl, rfl⟩

/-! ### LOOKUP -/

/-- The illegal levels (10_state.md R029). -/
theorem levelLegal_eq_false {lvl : Nat} (h : ¬ (1 ≤ lvl ∧ lvl ≤ 4)) : levelLegal lvl = false :=
  Bool.eq_false_iff.mpr (mt levelLegal_iff.mp h)

/-- Settles O6 by the three ends of the rule, the last with the numbers of the table unreduced. -/
theorem lookupReadsOneEntryOfTheBlockTable : Obligations.LookupReadsOneEntryOfTheBlockTable := by
  unfold Obligations.LookupReadsOneEntryOfTheBlockTable
  rintro s _ _ _ rfl rfl rfl
  split
  next hl => exact exec_of_rule_error (i := .lookup) (runLookup_level (levelLegal_eq_false hl))
  next hl =>
  have hl : levelLegal s.lvl = true := levelLegal_iff.mpr (Decidable.not_not.mp hl)
  split
  next hv => exact exec_of_rule_error (i := .lookup) (runLookup_version hl hv)
  next hv =>
  obtain ⟨hv1, hv40⟩ := Decidable.not_not.mp hv
  have hr := s.res.withSymbol_reports hv40 (lookupCfg_fits hl hv1 hv40)
  have hexec := exec_of_rule_ok (i := .lookup) (runLookup_ok hl hv1 hv40)
  exact ⟨_, hexec, hr.version, hr.width, hr.nb1, hr.nb2, hr.dbLen, hr.ebLen, hr.capacity, hr.dataCw, hr.totalCw, rfl, rfl, rfl, rfl,
    rfl⟩

/-! ### SELECT -/

/-- Where version 40 does not hold the input, nothing fits. -/
theorem selection_fits_eq_false {s : State} (hl : levelLegal s.lvl = true) :
    s.selection.fits = false ↔ capacityOf 40 (lookupCfg s.lvl 40) < s.inputLen := by
  rw [Bool.eq_false_iff, ne_eq, selection_fits_iff hl, Nat.not_le]

/-- The second check of SELECT, the third of GENERATE, in terms of CAP(40) (R104, R102). -/
theorem fits_or_not_strict {s : State} (hl : levelLegal s.lvl = true)
    (h : s.inputLen ≤ capacityOf 40 (lookupCfg s.lvl 40) ∨ s.ctrl.strict = false) :
    s.selection.fits = true ∨ s.ctrl.strict = false :=
  h.imp_left (selection_fits_iff hl).mpr

/-- Settles O7 by the three ends of the rule, the last with the smallest version. -/
theorem selectReportsTheSmallestVersion : Obligations.SelectReportsTheSmallestVersion := by
  unfold Obligations.SelectReportsTheSmallestVersion
  rintro s _ _ cap rfl rfl hcap
  obtain rfl : cap = fun u => capacityOf u (lookupCfg s.lvl u) := funext hcap
  split
  next hl => exact exec_of_rule_error (i := .select) (runSelect_level (levelLegal_eq_false hl))
  next hl =>
  have hl : levelLegal s.lvl = true := levelLegal_iff.mpr (Decidable.not_not.mp hl)
  split
  next hbig =>
    obtain ⟨hcap40, hstrict⟩ := hbig
    exact exec_of_rule_error (i := .select) (runSelect_capacity hl ((selection_fits_eq_false hl).mpr hcap40) hstrict)
  next hbig =>
  have hfit := fits_or_not_strict hl (by rw [Decidable.not_and_iff_not_or_not, Bool.not_eq_true, Nat.not_lt] at hbig; exact hbig)
  obtain ⟨hv1, hv40, hcfg⟩ := selection_spec s
  obtain ⟨hsmall, hforced⟩ := selection_smallest hl
  have hr := s.res.withSymbol_reports hv40 (lookupCfg_fits hl hv1 hv40)
  have heff : min s.inputLen (capacityOf s.selection.v (lookupCfg s.lvl s.selection.v)) < 2 ^ 16 :=
    Nat.lt_of_le_of_lt (Nat.min_le_left _ _) s.len.isLt
  have hexec := exec_of_rule_ok (i := .select) (runSelect_ok hl hfit)
  rw [State.writeSelection, hcfg] at hexec
  exact ⟨_, _, hexec, hv1, hv40, hsmall, hforced, hr.version, hr.width, hr.nb1, hr.nb2, hr.dbLen, hr.ebLen, hr.capacity,
    hr.dataCw, hr.totalCw, Nat.mod_eq_of_lt heff, rfl, rfl, rfl, rfl⟩

/-! ### RSENC -/

/-- RSOUT[j] after RSENC (R105). -/
theorem rsEncoded_rsoutByte (s : State) {j : Nat} (hj : j < Config.rsoutSize) :
    s.rsEncoded.complete.rsoutByte? j =
      some (if j < s.eccCount then (rsDivide (s.inbufBytes s.inputLen) s.eccCount).getD j 0 else 0) := by
  have hread : s.rsEncoded.complete.rsoutByte? j = (rsoutBytes (rsDivide (s.inbufBytes s.inputLen) s.eccCount) s.eccCount)[j]? := by
    unfold State.rsoutByte?
    rw [State.complete_mem, State.writeRsout_mem, Memory.get?_write_inside (Nat.le_add_right _ j) (by rw [rsoutBytes_length]; omega),
      Nat.add_sub_cancel_left]
  rw [hread, rsoutBytes_getElem? _ _ hj]

/-- RSENC writes no byte outside RSOUT (R105). -/
theorem rsEncoded_mem_outside (s : State) {a : Nat} (ha : ¬ (Config.rsoutBase ≤ a ∧ a < Config.rsoutBase + Config.rsoutSize)) :
    Memory.get? s.rsEncoded.mem a = Memory.get? s.mem a := by
  rw [State.writeRsout_mem]
  exact Memory.get?_write_outside (by rw [rsoutBytes_length]; omega)

/-- Settles O8 by the three ends of the rule, the last with RSOUT byte by byte. -/
theorem rsencWritesTheRemainder : Obligations.RsencWritesTheRemainder := by
  unfold Obligations.RsencWritesTheRemainder
  rintro s _ _ rfl rfl
  split
  next he => exact exec_of_rule_error (i := .rsenc) (runRsenc_ecclen he)
  next he =>
  obtain ⟨he1, he30⟩ := Decidable.not_not.mp he
  split
  next hn => exact exec_of_rule_error (i := .rsenc) (runRsenc_len he1 he30 hn)
  next hn =>
  have hsize : Config.rsoutSize = 32 := rfl
  refine ⟨_, exec_of_rule_ok (i := .rsenc) (runRsenc_ok he1 he30 (Nat.not_lt.mp hn)), rsDivide_length _ _, fun j hj => ?_,
    fun j hj hj32 => ?_, fun a ha => rsEncoded_mem_outside s ha, rfl⟩
  · rw [rsEncoded_rsoutByte s (by omega)]
    simp [State.eccCount, State.inputLen, hj]
  · rw [rsEncoded_rsoutByte s (by omega), if_neg (show ¬ j < s.eccCount from Nat.not_lt.mpr hj)]

/-! ### GENERATE -/

/-- An override is legal where MOVR is at most 7 (60_exceptions.md R184). -/
theorem overrideIllegal_iff {s : State} : s.overrideIllegal = true ↔ s.ctrl.movrEn = true ∧ s.ctrl.movr.toNat > 7 := by
  simp [State.overrideIllegal]

/-- There is an override exactly where MOVR_EN = 1 (10_state.md R028). -/
theorem maskOverride_isNone (s : State) : s.maskOverride.isNone = !s.ctrl.movrEn := by
  unfold State.maskOverride
  cases s.ctrl.movrEn <;> rfl

/-- Settles O9 by the four ends of the rule, the last with every field of the result state written out. -/
theorem generateRunsTheSevenStages : Obligations.GenerateRunsTheSevenStages := by
  unfold Obligations.GenerateRunsTheSevenStages
  rintro s _ _ _ rfl rfl rfl
  split
  next hl => exact exec_of_rule_error (i := .generate) (runGenerate_level (levelLegal_eq_false hl))
  next hl =>
  have hl : levelLegal s.lvl = true := levelLegal_iff.mpr (Decidable.not_not.mp hl)
  split
  next ho => exact exec_of_rule_error (i := .generate) (runGenerate_override hl (overrideIllegal_iff.mpr ho))
  next ho =>
  have ho := Bool.eq_false_iff.mpr (mt overrideIllegal_iff.mp ho)
  split
  next hbig =>
    obtain ⟨hfits, hstrict⟩ := hbig
    exact exec_of_rule_error (i := .generate) (runGenerate_capacity hl ho hfits hstrict)
  next hbig =>
  have hfit : s.selection.fits = true ∨ s.ctrl.strict = false := by
    rwa [Decidable.not_and_iff_not_or_not, Bool.not_eq_false, Bool.not_eq_true] at hbig
  rw [← maskOverride_isNone]
  exact exec_of_rule_ok (i := .generate) (runGenerate_ok hl ho hfit)

/-- GENERATE encodes min(n, CAP) bytes (43_codeword.md R133). -/
theorem symbolLen_eq {s : State} (hl : levelLegal s.lvl = true) :
    s.symbolLen = min s.inputLen (capacityOf s.selection.v (lookupCfg s.lvl s.selection.v)) := by
  obtain ⟨-, -, hcfg⟩ := selection_spec s
  rw [← hcfg]
  exact (selection_cfg_fits hl).encodedLength_eq _ _

/-- So it truncates exactly where version 40 does not hold the input (10_state.md R036). -/
theorem symbolLen_lt_iff {s : State} (hl : levelLegal s.lvl = true) :
    s.symbolLen < s.inputLen ↔ capacityOf 40 (lookupCfg s.lvl 40) < s.inputLen := by
  obtain ⟨hsmall, hforced⟩ := selection_smallest hl
  rw [symbolLen_eq hl]
  constructor
  · intro h
    refine Nat.lt_of_not_le fun hfit => ?_
    have := (hsmall hfit).1
    omega
  · intro h
    rw [hforced h]
    omega

/-- Settles O10 from what S1 selects and what S7 returns. -/
theorem generateReportsItsSymbol : Obligations.GenerateReportsItsSymbol := by
  unfold Obligations.GenerateReportsItsSymbol
  rintro s _ _ rfl rfl hl1 hl4 hover hfit
  have hl : levelLegal s.lvl = true := levelLegal_iff.mpr ⟨hl1, hl4⟩
  have ho : s.overrideIllegal = false :=
    Bool.eq_false_iff.mpr fun h => by
      obtain ⟨hen, hmovr⟩ := overrideIllegal_iff.mp h
      exact absurd (hover hen) (Nat.not_le.mpr hmovr)
  obtain ⟨hv1, hv40, hcfg⟩ := selection_spec s
  obtain ⟨hsmall, hforced⟩ := selection_smallest hl
  have hr : s.generated.res.Reports s.selection.v (lookupCfg s.lvl s.selection.v) :=
    hcfg ▸ { s.res.withSymbol_reports hv40 (selection_cfg_fits hl) with }
  have hlen : s.symbolLen < 2 ^ 16 := Nat.lt_of_le_of_lt (Nat.min_le_left _ _) s.len.isLt
  refine ⟨_, _, exec_of_rule_ok (i := .generate) (runGenerate_ok hl ho (fits_or_not_strict hl hfit)), hv1, hv40, hsmall, hforced,
    hr.version, hr.width, hr.nb1, hr.nb2, hr.dbLen, hr.ebLen, hr.capacity, ?effLen, hr.dataCw, hr.totalCw,
    generated_fmtWord ho, (finished_isSymbolOf ho).ver, ?truncated, maskOverride_isNone s, fun hen => ?override, rfl, rfl, rfl, rfl⟩
  case effLen => exact (Nat.mod_eq_of_lt hlen).trans (symbolLen_eq hl)
  case truncated => exact decide_eq_decide.mpr (symbolLen_lt_iff hl)
  case override =>
    have hk : s.maskOverride = some s.ctrl.movr.toNat := if_pos hen
    exact ⟨(generated_maskSel ho).trans ((finished_isSymbolOf ho).overridden _ hk).1, generated_score_of_override ho hk⟩

/-! ### Frames -/

/-- Settles O16 from what an ENGINE step can do. -/
theorem registerCommandsFrame : Obligations.RegisterCommandsFrame := by
  unfold Obligations.RegisterCommandsFrame
  intro i s t hi hexec
  have hnop : i = .nop → t.res = s.res ∧ t.status.err = s.status.err ∧ t.status.errInfo = s.status.errInfo := by
    rintro rfl
    obtain rfl : s.complete = t := Host.Outcome.next.inj hexec
    exact ⟨rfl, rfl, rfl⟩
  rcases exec_next hexec with ⟨e, -, rfl⟩ | ⟨-, rfl⟩ | ⟨rfl, -⟩ | ⟨-, -, -, -, rfl⟩ | ⟨rfl, -, -, rfl⟩ | ⟨rfl, -⟩
  case inr.inr.inl | inr.inr.inr.inr.inr => simp at hi
  case inr.inr.inr.inr.inl => exact ⟨fun _ => rfl, rfl, rfl, rfl, rfl, rfl, rfl, rfl, fun h => by simp at h, hnop⟩
  all_goals exact ⟨fun _ => rfl, rfl, rfl, rfl, rfl, rfl, rfl, rfl, fun _ => ⟨rfl, rfl⟩, hnop⟩

/-- The ends of RSENC (R105). -/
theorem execRsenc_next {s t : State} (h : exec .rsenc s = .next t) :
    (∃ e : EngineError, t = s.afterError e.code e.info) ∨ t = s.rsEncoded.complete := by
  rcases exec_next h with ⟨e, -, rfl⟩ | ⟨hi, -⟩ | ⟨hi, -⟩ | ⟨hi, -⟩ | ⟨hi, -⟩ | ⟨-, -, -, -, rfl⟩
  case inl => exact .inl ⟨e, rfl⟩
  case inr.inr.inr.inr.inr => exact .inr rfl
  all_goals cases hi

/-- The ends of GENERATE (R102). -/
theorem execGenerate_next {s t : State} (h : exec .generate s = .next t) :
    (∃ e : EngineError, t = s.afterError e.code e.info) ∨ t = s.generated.complete := by
  rcases exec_next h with ⟨e, -, rfl⟩ | ⟨hi, -⟩ | ⟨-, -, -, -, rfl⟩ | ⟨hi, -⟩ | ⟨hi, -⟩ | ⟨hi, -⟩
  case inl => exact .inl ⟨e, rfl⟩
  case inr.inr.inl => exact .inr rfl
  all_goals cases hi

/-- GENERATE writes no byte outside MATRIX (R102). -/
theorem generated_mem_outside (s : State) {a : Nat}
    (ha : ¬ (Config.matrixBase ≤ a ∧ a < Config.matrixBase + Config.matrixBytes)) :
    Memory.get? s.generated.mem a = Memory.get? s.mem a := by
  rw [State.writeSymbol_mem]
  exact Memory.get?_write_outside (by rw [packMatrix_length]; omega)

/-- Settles O17: an error stores nothing, and each write-back stores its own buffer. -/
theorem storingCommandsFrame : Obligations.StoringCommandsFrame := by
  unfold Obligations.StoringCommandsFrame
  refine ⟨fun s t h => ?_, fun s t h => ?_⟩
  · rcases execRsenc_next h with ⟨e, rfl⟩ | rfl
    · exact ⟨fun _ _ => rfl, rfl, rfl, rfl, rfl⟩
    · exact ⟨fun a ha => rsEncoded_mem_outside s ha, rfl, rfl, rfl, rfl⟩
  · rcases execGenerate_next h with ⟨e, rfl⟩ | rfl
    · exact ⟨fun _ _ => rfl, rfl⟩
    · exact ⟨fun a ha => generated_mem_outside s ha, rfl⟩

/-! ### Acceptance -/

/-- Settles O27: CMD is the register at offset 0x008, and BUSY decides between its acceptance and a dropped write. -/
theorem acceptanceOfACommand : Obligations.AcceptanceOfACommand := by
  unfold Obligations.AcceptanceOfACommand
  intro s c
  have hw : s.memWrite 0x008 .w4 c = some (s.unlessBusy (s.accept c)) := memWrite_register s c (by decide) (by decide)
  refine ⟨fun hp => ?_, fun hp => ?_⟩
  · rw [hw, unlessBusy_of_none hp]
    exact ⟨_, rfl, rfl, rfl, rfl, rfl, rfl, rfl, rfl, rfl, rfl, rfl⟩
  · rw [hw, State.unlessBusy_of_busy (Option.isSome_iff_ne_none.mpr hp)]
    rfl

end Sys2Proof.Machine
end

section
/-! PROOFS. The block table (41_selector.md R112 to R115) and the encoded length it bounds (43_codeword.md R133). -/

namespace Sys2Proof.Machine

/-! ### The counts derived from the table -/

/-- From each row of the table to the next, the capacity rises at every level (R112, R114). -/
theorem capacity_lt_capacity_succ :
    ∀ lvl ≤ 4, 1 ≤ lvl → ∀ v ≤ 39, 1 ≤ v → capacityOf v (lookupCfg lvl v) < capacityOf (v + 1) (lookupCfg lvl (v + 1)) := by
  decide +kernel

/-- The four entries of a row of the table have one total (R112, R113). -/
theorem totalCodewords_eq_level_one :
    ∀ lvl ≤ 4, 1 ≤ lvl → ∀ v ≤ 40, 1 ≤ v → totalCodewords (lookupCfg lvl v) = totalCodewords (lookupCfg 1 v) := by
  decide +kernel

/-- Settles O41 from the two facts about the table's rows. -/
theorem blockTableCapacitiesRise : Obligations.BlockTableCapacitiesRise := by
  unfold Obligations.BlockTableCapacitiesRise
  intro lvl v hl1 hl4 hv1
  exact ⟨fun hv39 => capacity_lt_capacity_succ lvl hl4 hl1 v hv39 hv1,
    fun hv40 => totalCodewords_eq_level_one lvl hl4 hl1 v hv40 hv1⟩

/-! ### The encoded length -/

/-- Settles O42: every entry of the table has at least 3 data codewords, so the limit of R133 is the capacity of R114. -/
theorem encodedLengthIsTheCapacityLimit : Obligations.EncodedLengthIsTheCapacityLimit := by
  unfold Obligations.EncodedLengthIsTheCapacityLimit
  intro n lvl v hl1 hl4 hv1 hv40
  have hc : (lookupCfg lvl v).FitsRegisters := lookupCfg_fits (levelLegal_iff.mpr ⟨hl1, hl4⟩) hv1 hv40
  exact hc.encodedLength_eq n v

end Sys2Proof.Machine
end

section
/-! PROOFS. The address of a cell in the exclusion bitmap (42_layout.md R118), and what `Reserve` and `SetDark` over a list of cells of the
symbol make of a single cell (R117, R118). -/

namespace Sys2Proof.Machine

/-! ### The exclusion address (R118) -/

/-- (n + 1)² without the square of a sum. -/
theorem succ_mul_self (n : Nat) : (n + 1) * (n + 1) = n * n + 2 * n + 1 := by
  rw [Nat.succ_mul, Nat.mul_succ]; omega

/-- A number and its square have an even sum. -/
theorem add_mul_self_mod_two (n : Nat) : (n + n * n) % 2 = 0 := by
  induction n with
  | zero => rfl
  | succ n ih => rw [succ_mul_self]; omega

/-- The shift of `xbit` drops no bit. -/
theorem two_mul_shiftRight_add_mul_self (n : Nat) : 2 * ((n + n * n) >>> 1) = n + n * n := by
  have heven := add_mul_self_mod_two n
  rw [Nat.shiftRight_eq_div_pow]; omega

/-- Twice the address: the larger coordinate and its square, plus twice the smaller coordinate. -/
theorem two_mul_xbit (x y : Nat) : 2 * xbit (x, y) = max x y + max x y * max x y + 2 * min x y := by
  unfold xbit
  dsimp only
  split <;> rename_i h
  · rw [Nat.max_eq_left (Nat.le_of_lt h), Nat.min_eq_right (Nat.le_of_lt h), Nat.mul_add, two_mul_shiftRight_add_mul_self]
  · rw [Nat.max_eq_right (Nat.le_of_not_lt h), Nat.min_eq_left (Nat.le_of_not_lt h), Nat.mul_add, two_mul_shiftRight_add_mul_self]

/-- The cells of a symbol of width w have addresses below the triangular number of w. -/
theorem two_mul_xbit_lt {w x y : Nat} (hx : x < w) (hy : y < w) : 2 * xbit (x, y) < w + w * w := by
  have hmax : max x y + 1 ≤ w := Nat.max_lt.mpr ⟨hx, hy⟩
  have hsquare : (max x y + 1) * (max x y + 1) ≤ w * w := Nat.mul_le_mul hmax hmax
  rw [succ_mul_self] at hsquare
  rw [two_mul_xbit]
  omega

/-- A cell whose larger coordinate is smaller has the smaller address. -/
theorem xbit_lt_xbit {x y x' y' : Nat} (h : max x y < max x' y') : xbit (x, y) < xbit (x', y') := by
  have hlt := two_mul_xbit_lt (Nat.lt_of_le_of_lt (Nat.le_max_left x y) h) (Nat.lt_of_le_of_lt (Nat.le_max_right x y) h)
  have heq := two_mul_xbit x' y'
  omega

/-- Equal addresses have the same larger coordinate, and so the same smaller one. -/
theorem xbit_inj {x y x' y' : Nat} (h : xbit (x, y) = xbit (x', y')) : (x = x' ∧ y = y') ∨ (x = y' ∧ y = x') := by
  have hmax : max x y = max x' y' := by
    rcases Nat.lt_trichotomy (max x y) (max x' y') with hlt | heq | hgt
    · exact absurd h (Nat.ne_of_lt (xbit_lt_xbit hlt))
    · exact heq
    · exact absurd h (Nat.ne_of_gt (xbit_lt_xbit hgt))
  have hmin : min x y = min x' y' := by
    have h1 := two_mul_xbit x y
    have h2 := two_mul_xbit x' y'
    rw [hmax] at h1
    omega
  omega

/-- Two cells share an address exactly if they are one cell or transposes of each other. -/
theorem xbit_eq_iff {c d : Cell} : xbit d = xbit c ↔ d = c ∨ d = transpose c := by
  constructor
  · intro h
    rcases xbit_inj h with ⟨h1, h2⟩ | ⟨h1, h2⟩
    · exact .inl (Prod.ext h1 h2)
    · exact .inr (Prod.ext h1 h2)
  · rintro (rfl | rfl)
    · rfl
    · exact xbit_transpose c

/-- Settles O43 from the triangular numbers. -/
theorem exclusionAddressIsSymmetricAndExact : Obligations.ExclusionAddressIsSymmetricAndExact := by
  unfold Obligations.ExclusionAddressIsSymmetricAndExact
  refine ⟨fun x y => (xbit_transpose (x, y)).symm, fun _ _ _ _ => xbit_inj, fun w x y hx hy => ?_⟩
  have hlt := two_mul_xbit_lt hx hy
  have heven := add_mul_self_mod_two w
  rw [Nat.mul_succ]
  omega

/-! ### `Reserve` and `SetDark` over a list, cell by cell -/

/-- A cell is reserved if it was, or if the list holds it or its transpose. -/
@[simp] theorem isReserved_reserveAll (s : Scratch) (cs : List Cell) (c : Cell) :
    isReserved (reserveAll s cs).excl c = true ↔ isReserved s.excl c = true ∨ c ∈ cs ∨ transpose c ∈ cs := by
  simp only [isReserved, reserveAll_excl, Bool.or_eq_true, List.any_eq_true, decide_eq_true_eq, xbit_eq_iff]
  refine or_congr_right ⟨?_, ?_⟩
  · rintro ⟨d, hd, rfl | rfl⟩
    · exact .inl hd
    · exact .inr hd
  · rintro (h | h)
    · exact ⟨_, h, .inl rfl⟩
    · exact ⟨_, h, .inr rfl⟩

/-- A cell of the symbol is dark if it was, or if the list, whose columns lie inside the symbol, holds it. -/
theorem cell_darkAll {w : Nat} (s : Scratch) {cs : List Cell} {c : Cell} (hcs : ∀ d ∈ cs, d.1 < w) (hc : c.1 < w) :
    Bitmap.cell (darkAll w s cs).mod w c = true ↔ Bitmap.cell s.mod w c = true ∨ c ∈ cs := by
  simp only [Bitmap.cell, darkAll_mod, Bool.or_eq_true, List.any_eq_true, decide_eq_true_eq]
  refine or_congr_right ⟨?_, fun h => ⟨c, h, rfl⟩⟩
  rintro ⟨d, hd, h⟩
  exact cellIndex_inj (hcs d hd) hc h ▸ hd

/-- A property of the scratch state that each step of a fold adds to. -/
theorem foldl_iff {α : Type} {f : Scratch → α → Scratch} {P : Scratch → Prop} {Q : α → Prop} {l : List α}
    (h : ∀ s, ∀ a ∈ l, (P (f s a) ↔ P s ∨ Q a)) (s : Scratch) : P (l.foldl f s) ↔ P s ∨ ∃ a ∈ l, Q a := by
  induction l generalizing s with
  | nil => simp
  | cons a l ih =>
    rw [List.foldl_cons, ih fun s b hb => h s b (List.mem_cons_of_mem a hb), h s a List.mem_cons_self]
    simp [or_assoc]

/-- After step 9 a cell of the symbol is reserved if it was, or if it or its transpose is dark (R130). -/
theorem isReserved_reserveDark {w : Nat} (s : Scratch) {c : Cell} (hx : c.1 < w) (hy : c.2 < w) :
    isReserved (reserveDark w s).excl c = true ↔
      isReserved s.excl c = true ∨ Bitmap.cell s.mod w c = true ∨ Bitmap.cell s.mod w (transpose c) = true := by
  simp [reserveDark, mem_gridCells, transpose, hx, hy]

/-- Settles O44 from step 9, which draws nothing. -/
theorem layoutReservesEveryDarkCell : Obligations.LayoutReservesEveryDarkCell := by
  unfold Obligations.LayoutReservesEveryDarkCell
  intro v x y hx hy hdark
  exact (isReserved_reserveDark _ hx hy).mpr (.inr (.inl hdark))

end Sys2Proof.Machine
end

section
/-! PROOFS. The layout engine against the structural patterns (42_layout.md R119 to R130): which cells each step of the layout makes dark or
reserves, and that together they are the patterns of R120 to R130, cell by cell. -/

namespace Sys2Proof.Machine

/-! ### Distances and squares -/

/-- Distances do not see a transposition of both cells. -/
@[simp] theorem cellDist_transpose (a c : Cell) : cellDist (transpose a) (transpose c) = cellDist a c := Nat.max_comm _ _

/-- Around a list of centres closed under transposition, a cell and its transpose lie on the same rings. -/
theorem exists_cellDist_transpose {l : List Cell} (hl : ∀ a ∈ l, transpose a ∈ l) (p : Nat → Prop) (c : Cell) :
    (∃ a ∈ l, p (cellDist a (transpose c))) ↔ ∃ a ∈ l, p (cellDist a c) :=
  ⟨fun ⟨a, ha, hp⟩ => ⟨transpose a, hl a ha, cellDist_transpose a (transpose c) ▸ hp⟩,
    fun ⟨a, ha, hp⟩ => ⟨transpose a, hl a ha, (cellDist_transpose a c).symm ▸ hp⟩⟩

/-- A cell of a square of side 2·r + 1 lies on the ring given by its distance from the square's centre. -/
theorem ringOf_sub {ox oy r : Nat} {c : Cell} (hx : ox ≤ c.1) (hy : oy ≤ c.2) :
    ringOf r (c.1 - ox, c.2 - oy) = cellDist (ox + r, oy + r) c := by
  simp only [ringOf, cellDist, dist]; omega

/-- The rings of a moved square are the cells at their distance from its centre. -/
theorem mem_moveBy_square {ox oy r : Nat} {p : Nat → Bool} {c : Cell} :
    c ∈ moveBy ox oy ((gridCells (2 * r + 1) (2 * r + 1)).filter fun d => p (ringOf r d)) ↔
      cellDist (ox + r, oy + r) c ≤ r ∧ p (cellDist (ox + r, oy + r) c) = true := by
  simp only [moveBy, List.mem_map, List.mem_filter, mem_gridCells]
  constructor
  · rintro ⟨d, ⟨⟨hx, hy⟩, hp⟩, rfl⟩
    have hring : ringOf r d = cellDist (ox + r, oy + r) (ox + d.1, oy + d.2) := by
      simpa using ringOf_sub (r := r) (c := (ox + d.1, oy + d.2)) (Nat.le_add_right ox d.1) (Nat.le_add_right oy d.2)
    refine ⟨?_, hring ▸ hp⟩
    simp only [cellDist, dist]; omega
  · rintro ⟨hd, hp⟩
    have hbounds : (ox ≤ c.1 ∧ c.1 - ox < 2 * r + 1) ∧ oy ≤ c.2 ∧ c.2 - oy < 2 * r + 1 := by
      simp only [cellDist, dist] at hd; omega
    obtain ⟨⟨hx, hx'⟩, hy, hy'⟩ := hbounds
    exact ⟨(c.1 - ox, c.2 - oy), ⟨⟨hx', hy'⟩, (ringOf_sub hx hy).symm ▸ hp⟩,
      Prod.ext (Nat.add_sub_cancel' hx) (Nat.add_sub_cancel' hy)⟩

/-! ### Finders and separators (R120, R121) -/

/-- The dark cells of a finder: its outer ring and its core (R120). -/
theorem mem_moveBy_finderDark {ox oy : Nat} {c : Cell} :
    c ∈ moveBy ox oy finderDark ↔ cellDist (ox + 3, oy + 3) c = 3 ∨ cellDist (ox + 3, oy + 3) c ≤ 1 := by
  refine (mem_moveBy_square (r := 3) (p := fun k => k = 3 || k ≤ 1)).trans ?_
  simp only [Bool.or_eq_true, decide_eq_true_eq]; omega

/-- The light ring of a finder (R120). -/
theorem mem_moveBy_finderLight {ox oy : Nat} {c : Cell} :
    c ∈ moveBy ox oy finderLight ↔ cellDist (ox + 3, oy + 3) c = 2 := by
  refine (mem_moveBy_square (r := 3) (p := fun k => !(k = 3 || k ≤ 1))).trans ?_
  simp only [Bool.not_eq_true', Bool.or_eq_false_iff, decide_eq_false_iff_not]; omega

/-- The centre of a finder pattern lies (3, 3) from its corner. -/
theorem exists_finderCorners_iff {w : Nat} (hw : 7 ≤ w) {Q : Cell → Prop} :
    (∃ o ∈ finderCorners w, Q (o.1 + 3, o.2 + 3)) ↔ ∃ f ∈ finderCentres w, Q f := by
  simp [finderCorners, finderCentres, show w - 7 + 3 = w - 4 by omega]

/-- Step 2 makes the three finders dark (R120). -/
theorem cell_drawFinders {w : Nat} (s : Scratch) {c : Cell} (hw : 7 ≤ w) (hc : c.1 < w) :
    Bitmap.cell (drawFinders w s).mod w c = true ↔
      Bitmap.cell s.mod w c = true ∨ ∃ f ∈ finderCentres w, cellDist f c = 3 ∨ cellDist f c ≤ 1 := by
  rw [← exists_finderCorners_iff hw]
  refine foldl_iff (P := fun s => Bitmap.cell s.mod w c = true) (fun s o ho => ?_) s
  have ho7 : o.1 + 7 ≤ w := by
    simp only [finderCorners, List.mem_cons, List.not_mem_nil, or_false] at ho
    rcases ho with rfl | rfl | rfl <;> dsimp only <;> omega
  rw [drawFinder, reserveAll_mod, cell_darkAll s (fun d hd => ?_) hc, mem_moveBy_finderDark]
  rw [mem_moveBy_finderDark] at hd
  simp only [cellDist, dist] at hd; omega

/-- The finders are placed symmetrically. -/
theorem transpose_mem_finderCentres {w : Nat} : ∀ f ∈ finderCentres w, transpose f ∈ finderCentres w := by
  simp [finderCentres, transpose]

/-- Step 2 reserves their light rings (R120). -/
theorem isReserved_drawFinders {w : Nat} (s : Scratch) {c : Cell} (hw : 7 ≤ w) :
    isReserved (drawFinders w s).excl c = true ↔
      isReserved s.excl c = true ∨ ∃ f ∈ finderCentres w, cellDist f c = 2 := by
  have hfold := foldl_iff (f := drawFinder w) (P := fun s => isReserved s.excl c = true) (l := finderCorners w)
    (fun s o _ => isReserved_reserveAll _ (moveBy o.1 o.2 finderLight) c) s
  simp only [mem_moveBy_finderLight] at hfold
  rw [drawFinders, hfold, exists_finderCorners_iff hw (Q := fun f => cellDist f c = 2 ∨ cellDist f (transpose c) = 2)]
  simp only [and_or_left, exists_or, exists_cellDist_transpose transpose_mem_finderCentres (· = 2), or_self]

/-- The separators: the eight cells of row 7, of column 7, of row w − 8 and of column w − 8 beside each finder. -/
theorem mem_separatorCells {w : Nat} {c : Cell} (hw : 8 ≤ w) (hx : c.1 < w) (hy : c.2 < w) :
    c ∈ separatorCells w ↔ (c.2 = 7 ∧ (c.1 ≤ 7 ∨ w ≤ c.1 + 8)) ∨ (c.1 = 7 ∧ (c.2 ≤ 7 ∨ w ≤ c.2 + 8)) ∨
      (c.1 + 8 = w ∧ c.2 ≤ 7) ∨ (c.2 + 8 = w ∧ c.1 ≤ 7) := by
  obtain ⟨x, y⟩ := c
  simp only [separatorCells, List.mem_flatMap, List.mem_range, List.mem_cons, List.not_mem_nil, or_false, Prod.mk.injEq] at hx hy ⊢
  constructor
  · rintro ⟨k, hk, h⟩; omega
  · rintro (⟨hy7, h | h⟩ | ⟨hx7, h | h⟩ | ⟨hx8, h⟩ | ⟨hy8, h⟩)
    · exact ⟨x, by omega, by omega⟩
    · exact ⟨x + 8 - w, by omega, by omega⟩
    · exact ⟨y, by omega, by omega⟩
    · exact ⟨y + 8 - w, by omega, by omega⟩
    · exact ⟨y, by omega, by omega⟩
    · exact ⟨x, by omega, by omega⟩

/-- Inside the symbol, the separators are the ring of distance 4 around each finder's centre. -/
theorem mem_separatorCells_iff_cellDist {w : Nat} {c : Cell} (hw : 8 ≤ w) (hx : c.1 < w) (hy : c.2 < w) :
    c ∈ separatorCells w ↔ ∃ f ∈ finderCentres w, cellDist f c = 4 := by
  have topLeft : cellDist (3, 3) c = 4 ↔ (c.2 = 7 ∧ c.1 ≤ 7) ∨ (c.1 = 7 ∧ c.2 ≤ 7) := by
    simp only [cellDist, dist]; omega
  have topRight : cellDist (w - 4, 3) c = 4 ↔ (c.2 = 7 ∧ w ≤ c.1 + 8) ∨ (c.1 + 8 = w ∧ c.2 ≤ 7) := by
    simp only [cellDist, dist]; omega
  have bottomLeft : cellDist (3, w - 4) c = 4 ↔ (c.1 = 7 ∧ w ≤ c.2 + 8) ∨ (c.2 + 8 = w ∧ c.1 ≤ 7) := by
    simp only [cellDist, dist]; omega
  simp only [mem_separatorCells hw hx hy, finderCentres, List.mem_cons, List.not_mem_nil, or_false, exists_eq_or_imp, exists_eq_left,
    topLeft, topRight, bottomLeft]
  omega

/-- Step 3 reserves the separators (R121). -/
theorem isReserved_drawSeparators {w : Nat} (s : Scratch) {c : Cell} (hw : 8 ≤ w) (hx : c.1 < w) (hy : c.2 < w) :
    isReserved (drawSeparators w s).excl c = true ↔
      isReserved s.excl c = true ∨ ∃ f ∈ finderCentres w, cellDist f c = 4 := by
  rw [drawSeparators, isReserved_reserveAll, mem_separatorCells_iff_cellDist hw hx hy,
    mem_separatorCells_iff_cellDist (c := transpose c) hw hy hx, exists_cellDist_transpose transpose_mem_finderCentres (· = 4), or_self]

/-! ### Alignment patterns (R122 to R125) -/

/-- The dark cells of an alignment pattern: its outer ring and its centre (R122). -/
theorem mem_moveBy_alignDark {ox oy : Nat} {c : Cell} :
    c ∈ moveBy ox oy alignDark ↔ cellDist (ox + 2, oy + 2) c = 2 ∨ cellDist (ox + 2, oy + 2) c = 0 := by
  refine (mem_moveBy_square (r := 2) (p := fun k => k ≠ 1)).trans ?_
  simp only [decide_eq_true_eq]; omega

/-- The light ring of an alignment pattern (R122). -/
theorem mem_moveBy_alignLight {ox oy : Nat} {c : Cell} :
    c ∈ moveBy ox oy alignLight ↔ cellDist (ox + 2, oy + 2) c = 1 := by
  refine (mem_moveBy_square (r := 2) (p := fun k => k = 1)).trans ?_
  simp only [decide_eq_true_eq]; omega

/-- The walk of R125 draws the centres of the coordinate lists: the forty rows of the table. -/
theorem alignCentres_perm_listedCentres : ∀ v ≤ 40, 1 ≤ v → (alignCentres v).Perm (listedCentres v) := by
  decide +kernel

/-- No row of the table repeats a coordinate. -/
theorem alignCoords_nodup : ∀ v ≤ 40, (alignCoords v).Nodup := by
  decide +kernel

/-- Pairs of distinct coordinates are distinct. -/
theorem listedCentres_nodup {v : Nat} (hv40 : v ≤ 40) : (listedCentres v).Nodup := by
  have hnodup := alignCoords_nodup v hv40
  refine List.Pairwise.filter _ (List.pairwise_flatMap.mpr ⟨fun a _ => List.pairwise_map.mpr ?_, ?_⟩)
  · exact hnodup.imp fun hne heq => hne (Prod.mk.inj heq).2
  · refine hnodup.imp fun hne c hc d hd heq => hne ?_
    obtain ⟨_, _, rfl⟩ := List.mem_map.mp hc
    obtain ⟨_, _, rfl⟩ := List.mem_map.mp hd
    exact (Prod.mk.inj heq).1

/-- The coordinates of the table leave the pattern inside the symbol: the forty rows of the table. -/
theorem alignCoords_inside : ∀ v ≤ 40, ∀ a ∈ alignCoords v, 2 ≤ a ∧ a + 3 ≤ symbolWidth v := by
  decide +kernel

/-- The pairs of coordinates but the three that overlap a finder (R125). -/
theorem mem_listedCentres {v : Nat} {c : Cell} :
    c ∈ listedCentres v ↔ (c.1 ∈ alignCoords v ∧ c.2 ∈ alignCoords v) ∧
      c ∉ [(6, 6), (6, symbolWidth v - 7), (symbolWidth v - 7, 6)] := by
  obtain ⟨x, y⟩ := c
  simp only [listedCentres, List.mem_filter, List.mem_flatMap, List.mem_map, Prod.mk.injEq, Bool.not_eq_true', List.contains_eq_mem,
    decide_eq_false_iff_not]
  refine and_congr_left fun _ => ⟨?_, fun ⟨hx, hy⟩ => ⟨x, hx, y, hy, rfl, rfl⟩⟩
  rintro ⟨a, ha, b, hb, rfl, rfl⟩
  exact ⟨ha, hb⟩

/-- The alignment centres are placed symmetrically. -/
theorem transpose_mem_listedCentres {v : Nat} : ∀ a ∈ listedCentres v, transpose a ∈ listedCentres v := by
  rintro ⟨x, y⟩ h
  simp only [mem_listedCentres, transpose, List.mem_cons, List.not_mem_nil, or_false, Prod.mk.injEq] at h ⊢
  obtain ⟨⟨hx, hy⟩, hne⟩ := h
  exact ⟨⟨hy, hx⟩, by omega⟩

/-- Step 4 makes the listed alignment patterns dark (R122 to R125). -/
theorem cell_drawAlignments {v : Nat} (s : Scratch) {c : Cell} (hv1 : 1 ≤ v) (hv40 : v ≤ 40) (hc : c.1 < symbolWidth v) :
    Bitmap.cell (drawAlignments v s).mod (symbolWidth v) c = true ↔
      Bitmap.cell s.mod (symbolWidth v) c = true ∨ ∃ a ∈ listedCentres v, cellDist a c = 2 ∨ cellDist a c = 0 := by
  have hperm := alignCentres_perm_listedCentres v hv40 hv1
  simp only [← hperm.mem_iff]
  refine foldl_iff (P := fun s => Bitmap.cell s.mod (symbolWidth v) c = true) (fun s a ha => ?_) s
  obtain ⟨⟨hx, hy⟩, -⟩ := mem_listedCentres.mp (hperm.mem_iff.mp ha)
  obtain ⟨hx2, hxw⟩ := alignCoords_inside v hv40 _ hx
  obtain ⟨hy2, -⟩ := alignCoords_inside v hv40 _ hy
  rw [drawAlignment, reserveAll_mod, cell_darkAll s (fun d hd => ?_) hc, mem_moveBy_alignDark, Nat.sub_add_cancel hx2,
    Nat.sub_add_cancel hy2]
  rw [mem_moveBy_alignDark] at hd
  simp only [cellDist, dist] at hd; omega

/-- Step 4 reserves their light rings (R122). -/
theorem isReserved_drawAlignments {v : Nat} (s : Scratch) {c : Cell} (hv1 : 1 ≤ v) (hv40 : v ≤ 40) :
    isReserved (drawAlignments v s).excl c = true ↔
      isReserved s.excl c = true ∨ ∃ a ∈ listedCentres v, cellDist a c = 1 := by
  have hperm := alignCentres_perm_listedCentres v hv40 hv1
  have hfold := foldl_iff (f := drawAlignment (symbolWidth v)) (P := fun s => isReserved s.excl c = true) (l := alignCentres v)
    (Q := fun a => cellDist a c = 1 ∨ cellDist a (transpose c) = 1) (fun s a ha => ?_) s
  · rw [drawAlignments, hfold]
    simp only [hperm.mem_iff, and_or_left, exists_or, exists_cellDist_transpose transpose_mem_listedCentres (· = 1), or_self]
  obtain ⟨⟨hx, hy⟩, -⟩ := mem_listedCentres.mp (hperm.mem_iff.mp ha)
  rw [drawAlignment, isReserved_reserveAll, mem_moveBy_alignLight, mem_moveBy_alignLight,
    Nat.sub_add_cancel (alignCoords_inside v hv40 _ hx).1, Nat.sub_add_cancel (alignCoords_inside v hv40 _ hy).1, darkAll_excl]

/-! ### Timing patterns, format strips and version blocks (R126 to R128) -/

/-- The timing patterns run between the separators (R126). -/
theorem mem_timingRange {w k : Nat} : k ∈ timingRange w ↔ 8 ≤ k ∧ k + 9 ≤ w := by
  simp only [timingRange, List.mem_map, List.mem_range]
  exact ⟨by rintro ⟨i, hi, rfl⟩; omega, fun h => ⟨k - 8, by omega, by omega⟩⟩

/-- The cells of row 6 and of column 6 whose running coordinate is in a list. -/
theorem mem_flatMap_timing {ks : List Nat} {c : Cell} :
    c ∈ (ks.flatMap fun k => [(k, 6), (6, k)]) ↔ (c.2 = 6 ∧ c.1 ∈ ks) ∨ (c.1 = 6 ∧ c.2 ∈ ks) := by
  obtain ⟨x, y⟩ := c
  simp only [List.mem_flatMap, List.mem_cons, List.not_mem_nil, or_false, Prod.mk.injEq]
  constructor
  · rintro ⟨k, hk, ⟨rfl, rfl⟩ | ⟨rfl, rfl⟩⟩
    · exact .inl ⟨rfl, hk⟩
    · exact .inr ⟨rfl, hk⟩
  · rintro (⟨rfl, hk⟩ | ⟨rfl, hk⟩)
    · exact ⟨_, hk, .inl ⟨rfl, rfl⟩⟩
    · exact ⟨_, hk, .inr ⟨rfl, rfl⟩⟩

/-- `onTiming` as a proposition. -/
theorem onTiming_iff {w : Nat} {c : Cell} :
    onTiming w c = true ↔ (c.2 = 6 ∧ 8 ≤ c.1 ∧ c.1 + 9 ≤ w) ∨ (c.1 = 6 ∧ 8 ≤ c.2 ∧ c.2 + 9 ≤ w) := by
  simp [onTiming, and_assoc]

/-- The dark timing cells: the running coordinate and 6 have an even sum (R126). -/
theorem mem_timingDark {w : Nat} {c : Cell} : c ∈ timingDark w ↔ onTiming w c = true ∧ (c.1 + c.2) % 2 = 0 := by
  rw [timingDark, mem_flatMap_timing, onTiming_iff]
  simp only [List.mem_filter, mem_timingRange, decide_eq_true_eq]; omega

/-- The light timing cells (R126). -/
theorem mem_timingLight {w : Nat} {c : Cell} : c ∈ timingLight w ↔ onTiming w c = true ∧ (c.1 + c.2) % 2 ≠ 0 := by
  rw [timingLight, mem_flatMap_timing, onTiming_iff]
  simp only [List.mem_filter, mem_timingRange, decide_eq_true_eq]; omega

/-- Step 5 makes the even timing cells dark (R126). -/
theorem cell_drawTiming {w : Nat} (s : Scratch) {c : Cell} (hc : c.1 < w) :
    Bitmap.cell (drawTiming w s).mod w c = true ↔
      Bitmap.cell s.mod w c = true ∨ (onTiming w c = true ∧ (c.1 + c.2) % 2 = 0) := by
  rw [drawTiming, reserveAll_mod, cell_darkAll s (fun d hd => ?_) hc, mem_timingDark]
  rw [mem_timingDark, onTiming_iff] at hd
  omega

/-- The two timing patterns are transposes of each other. -/
theorem onTiming_transpose (w : Nat) (c : Cell) : onTiming w (transpose c) = onTiming w c := Bool.or_comm _ _

/-- Step 5 reserves the odd timing cells (R126). -/
theorem isReserved_drawTiming {w : Nat} (s : Scratch) {c : Cell} :
    isReserved (drawTiming w s).excl c = true ↔
      isReserved s.excl c = true ∨ (onTiming w c = true ∧ (c.1 + c.2) % 2 ≠ 0) := by
  rw [drawTiming, isReserved_reserveAll, mem_timingLight, mem_timingLight, onTiming_transpose, transpose, Nat.add_comm c.2, or_self,
    darkAll_excl]

/-- `onFormat` as a proposition. -/
theorem onFormat_iff {w : Nat} {c : Cell} :
    onFormat w c = true ↔ (c.2 = 8 ∧ (c.1 ≤ 8 ∨ w ≤ c.1 + 8)) ∨ (c.1 = 8 ∧ (c.2 ≤ 8 ∨ w ≤ c.2 + 8)) := by
  simp [onFormat]

/-- With the dark module, the format strips are closed under transposition. -/
theorem onFormat_transpose (w : Nat) (c : Cell) : onFormat w (transpose c) = onFormat w c := Bool.or_comm _ _

/-- Inside the symbol, the format strips and the dark module are the nine first and eight last cells of row 8 and of column 8. -/
theorem onFormat_iff_mem {w : Nat} {c : Cell} (hw : 21 ≤ w) (hx : c.1 < w) (hy : c.2 < w) :
    onFormat w c = true ↔ c ∈ formatCells w ∨ c = darkModule w := by
  obtain ⟨x, y⟩ := c
  simp only [onFormat_iff, formatCells, darkModule, List.mem_append, List.mem_flatMap, List.mem_map, List.mem_range, List.mem_cons,
    List.not_mem_nil, or_false, Prod.mk.injEq]
  dsimp only at hx hy
  constructor
  · rintro (⟨rfl, h | h⟩ | ⟨rfl, h | h⟩)
    · exact .inl (.inl (.inl ⟨x, by omega, .inl ⟨rfl, rfl⟩⟩))
    · exact .inl (.inl (.inr ⟨w - 1 - x, by omega, by omega⟩))
    · exact .inl (.inl (.inl ⟨y, by omega, .inr ⟨rfl, rfl⟩⟩))
    · by_cases hy8 : y = w - 8
      · exact .inr ⟨rfl, hy8⟩
      · exact .inl (.inr ⟨w - 1 - y, by omega, by omega⟩)
  · rintro (((⟨k, hk, h⟩ | ⟨k, hk, h⟩) | ⟨k, hk, h⟩) | h) <;> omega

/-- `onVersion` as a proposition. -/
theorem onVersion_iff {v : Nat} {c : Cell} :
    onVersion v c = true ↔ 7 ≤ v ∧ ((c.1 ≤ 5 ∧ symbolWidth v ≤ c.2 + 11 ∧ c.2 + 9 ≤ symbolWidth v) ∨
      (c.2 ≤ 5 ∧ symbolWidth v ≤ c.1 + 11 ∧ c.1 + 9 ≤ symbolWidth v)) := by
  simp [onVersion, and_assoc]

/-- The cell (a, b) of the bottom-left version block holds bit 3·a + (b + 11 − w). -/
theorem onVersion_iff_mem {v : Nat} {c : Cell} : onVersion v c = true ↔ 7 ≤ v ∧ c ∈ versionCells (symbolWidth v) := by
  obtain ⟨x, y⟩ := c
  have hw : 11 ≤ symbolWidth v := by simp only [symbolWidth]; omega
  simp only [onVersion_iff, versionCells, versionCell, transpose, List.mem_flatMap, List.mem_range, List.mem_cons, List.not_mem_nil,
    or_false, Prod.mk.injEq]
  refine and_congr_right fun _ => ⟨?_, ?_⟩
  · rintro (h | h)
    · exact ⟨3 * x + (y + 11 - symbolWidth v), by omega, .inl (by omega)⟩
    · exact ⟨3 * y + (x + 11 - symbolWidth v), by omega, .inr (by omega)⟩
  · rintro ⟨j, hj, h⟩; omega

/-- The two version blocks are transposes of each other (R128). -/
theorem onVersion_transpose (v : Nat) (c : Cell) : onVersion v (transpose c) = onVersion v c :=
  congrArg (decide (7 ≤ v) && ·) (Bool.or_comm _ _)

/-- Step 7 draws nothing. -/
@[simp] theorem drawVersion_mod (v : Nat) (s : Scratch) : (drawVersion v s).mod = s.mod := by
  unfold drawVersion; split <;> rfl

/-- Step 7 reserves the version blocks (R128). -/
theorem isReserved_drawVersion {v : Nat} (s : Scratch) {c : Cell} :
    isReserved (drawVersion v s).excl c = true ↔
      isReserved s.excl c = true ∨ onVersion v c = true := by
  by_cases hv : v ≥ 7
  · have hmem (d : Cell) : d ∈ versionCells (symbolWidth v) ↔ onVersion v d = true := by rw [onVersion_iff_mem, and_iff_right hv]
    rw [drawVersion, if_pos hv, isReserved_reserveAll, hmem, hmem, onVersion_transpose, or_self]
  · have hnone : ¬ onVersion v c = true := fun hon => hv (onVersion_iff_mem.mp hon).1
    rw [drawVersion, if_neg hv, or_iff_left hnone]

/-! ### The structural patterns -/

/-- `structuralDark` as a proposition. -/
theorem structuralDark_iff {v : Nat} {c : Cell} :
    structuralDark v c = true ↔ (∃ f ∈ finderCentres (symbolWidth v), cellDist f c = 3 ∨ cellDist f c ≤ 1) ∨
      (∃ a ∈ listedCentres v, cellDist a c = 2 ∨ cellDist a c = 0) ∨
      (onTiming (symbolWidth v) c = true ∧ (c.1 + c.2) % 2 = 0) ∨ c = darkModule (symbolWidth v) := by
  simp [structuralDark, darkModule, or_assoc]

/-- `structuralReserved` as a proposition. -/
theorem structuralReserved_iff {v : Nat} {c : Cell} :
    structuralReserved v c = true ↔ (∃ f ∈ finderCentres (symbolWidth v), cellDist f c ≤ 4) ∨
      (∃ a ∈ listedCentres v, cellDist a c ≤ 2) ∨
      onTiming (symbolWidth v) c = true ∨ onFormat (symbolWidth v) c = true ∨ onVersion v c = true := by
  simp [structuralReserved, or_assoc]

/-- Of the dark patterns only the dark module is not closed under transposition. -/
theorem structuralDark_or_transpose_iff {v : Nat} {c : Cell} :
    (structuralDark v c = true ∨ structuralDark v (transpose c) = true) ↔
      structuralDark v c = true ∨ transpose c = darkModule (symbolWidth v) := by
  have hfinder := exists_cellDist_transpose (transpose_mem_finderCentres (w := symbolWidth v)) (fun k => k = 3 ∨ k ≤ 1) c
  have halign := exists_cellDist_transpose (transpose_mem_listedCentres (v := v)) (fun k => k = 2 ∨ k = 0) c
  have hparity : (transpose c).1 + (transpose c).2 = c.1 + c.2 := Nat.add_comm _ _
  rw [structuralDark_iff, structuralDark_iff, hfinder, halign, onTiming_transpose, hparity]
  simp only [← or_or_distrib_left]
  simp only [or_assoc]

/-- A format strip's cell or the dark module, up to transposition (R127). -/
theorem onFormat_iff_mem_or_transpose_mem {w : Nat} {c : Cell} (hw : 21 ≤ w) (hx : c.1 < w) (hy : c.2 < w) :
    onFormat w c = true ↔
      (c ∈ formatCells w ∨ transpose c ∈ formatCells w) ∨ c = darkModule w ∨ transpose c = darkModule w := by
  calc onFormat w c = true ↔ onFormat w c = true ∨ onFormat w (transpose c) = true := by rw [onFormat_transpose, or_self]
    _ ↔ (c ∈ formatCells w ∨ c = darkModule w) ∨ (transpose c ∈ formatCells w ∨ transpose c = darkModule w) :=
      or_congr (onFormat_iff_mem hw hx hy) (onFormat_iff_mem (c := transpose c) hw hy hx)
    _ ↔ _ := or_or_or_comm

/-- What the nine steps have made dark (R119). -/
theorem cell_layout {v : Nat} {c : Cell} (hv1 : 1 ≤ v) (hv40 : v ≤ 40) (hc : c.1 < symbolWidth v) :
    Bitmap.cell (layout v).mod (symbolWidth v) c = true ↔ structuralDark v c = true := by
  have hw : 21 ≤ symbolWidth v := by simp only [symbolWidth]; omega
  have hdarkModule : ∀ d ∈ [darkModule (symbolWidth v)], d.1 < symbolWidth v := by
    simp only [List.mem_singleton, darkModule, forall_eq]; omega
  rw [layout, reserveDark, reserveAll_mod, drawDarkModule, cell_darkAll _ hdarkModule hc, drawVersion_mod, drawFormat, reserveAll_mod,
    cell_drawTiming _ hc, cell_drawAlignments _ hv1 hv40 hc, drawSeparators, reserveAll_mod, cell_drawFinders _ (by omega) hc,
    structuralDark_iff]
  simp [Bitmap.cell, or_assoc]

/-- The reserved cells by the step that reserves them: the light cells of steps 2 to 7 in order, then the dark cells of step 9. -/
theorem structuralReserved_iff_steps {v : Nat} {c : Cell} (hv1 : 1 ≤ v) (hx : c.1 < symbolWidth v) (hy : c.2 < symbolWidth v) :
    structuralReserved v c = true ↔ (∃ f ∈ finderCentres (symbolWidth v), cellDist f c = 2) ∨
      (∃ f ∈ finderCentres (symbolWidth v), cellDist f c = 4) ∨ (∃ a ∈ listedCentres v, cellDist a c = 1) ∨
      (onTiming (symbolWidth v) c = true ∧ (c.1 + c.2) % 2 ≠ 0) ∨
      (c ∈ formatCells (symbolWidth v) ∨ transpose c ∈ formatCells (symbolWidth v)) ∨ onVersion v c = true ∨
      structuralDark v c = true ∨ structuralDark v (transpose c) = true := by
  have hfinder : (∃ f ∈ finderCentres (symbolWidth v), cellDist f c ≤ 4) ↔
      (∃ f ∈ finderCentres (symbolWidth v), cellDist f c = 2) ∨ (∃ f ∈ finderCentres (symbolWidth v), cellDist f c = 4) ∨
      ∃ f ∈ finderCentres (symbolWidth v), cellDist f c = 3 ∨ cellDist f c ≤ 1 := by
    simp only [← exists_or, ← and_or_left]
    exact exists_congr fun f => and_congr_right fun _ => by omega
  have halign : (∃ a ∈ listedCentres v, cellDist a c ≤ 2) ↔ (∃ a ∈ listedCentres v, cellDist a c = 1) ∨
      ∃ a ∈ listedCentres v, cellDist a c = 2 ∨ cellDist a c = 0 := by
    simp only [← exists_or, ← and_or_left]
    exact exists_congr fun a => and_congr_right fun _ => by omega
  have htiming : onTiming (symbolWidth v) c = true ↔ (onTiming (symbolWidth v) c = true ∧ (c.1 + c.2) % 2 ≠ 0) ∨
      (onTiming (symbolWidth v) c = true ∧ (c.1 + c.2) % 2 = 0) := by
    rw [← and_or_left, or_comm, and_iff_left (Decidable.em _)]
  have hw : 21 ≤ symbolWidth v := by simp only [symbolWidth]; omega
  have hformat := onFormat_iff_mem_or_transpose_mem hw hx hy
  refine (structuralReserved_iff.trans
    (or_congr hfinder <| or_congr halign <| or_congr htiming <| or_congr_left hformat)).trans ?_
  rw [structuralDark_or_transpose_iff, structuralDark_iff]
  exact iff_of_eq (by ac_rfl)

/-- What the nine steps have reserved (R119). -/
theorem isReserved_layout {v : Nat} {c : Cell} (hv1 : 1 ≤ v) (hv40 : v ≤ 40) (hx : c.1 < symbolWidth v) (hy : c.2 < symbolWidth v) :
    isReserved (layout v).excl c = true ↔ structuralReserved v c = true := by
  have hw : 8 ≤ symbolWidth v := by simp only [symbolWidth]; omega
  refine (isReserved_reserveDark _ hx hy).trans ?_
  change _ ∨ Bitmap.cell (layout v).mod _ c = true ∨ Bitmap.cell (layout v).mod _ (transpose c) = true ↔ _
  rw [cell_layout hv1 hv40 hx, cell_layout hv1 hv40 hy, drawDarkModule, darkAll_excl, isReserved_drawVersion, drawFormat,
    isReserved_reserveAll, isReserved_drawTiming, isReserved_drawAlignments _ hv1 hv40, isReserved_drawSeparators _ hw hx hy,
    isReserved_drawFinders _ (by omega), structuralReserved_iff_steps hv1 hx hy]
  simp only [isReserved, Bitmap.get_zero, Bool.false_eq_true, false_or, or_assoc]

/-- Settles O45: the walk by the table's rows, each module and each reservation by what the nine steps draw. -/
theorem layoutDrawsTheStructuralPatterns : Obligations.LayoutDrawsTheStructuralPatterns := by
  unfold Obligations.LayoutDrawsTheStructuralPatterns
  intro v hv1 hv40
  have hperm := alignCentres_perm_listedCentres v hv40 hv1
  exact ⟨hperm.nodup_iff.mpr (listedCentres_nodup hv40), fun c => hperm.mem_iff, fun x y hx hy =>
    ⟨Bool.eq_iff_iff.mpr (cell_layout hv1 hv40 hx), Bool.eq_iff_iff.mpr (isReserved_layout hv1 hv40 hx hy)⟩⟩

end Sys2Proof.Machine
end

section
/-! PROOFS. The codeword encoder (43_codeword.md R131 to R135): the nibble sequence fills whole bytes, and the pad fills the buffer. -/

namespace Sys2Proof.Machine

/-! ### Nibbles and bytes (R134) -/

/-- The nibbles of a byte put together from two. -/
theorem byteNibbles_append (hi lo : BitVec 4) : byteNibbles (hi ++ lo) = [hi, lo] := by
  rw [byteNibbles, BitVec.extractLsb'_append_eq_left, BitVec.extractLsb'_append_eq_right]

/-- Bytes have two nibbles each. -/
@[simp] theorem length_flatMap_byteNibbles (bytes : List Byte) : (bytes.flatMap byteNibbles).length = 2 * bytes.length := by
  induction bytes with
  | nil => rfl
  | cons b rest ih =>
    have hb : (byteNibbles b).length = 2 := rfl
    rw [List.flatMap_cons, List.length_append, ih, hb, List.length_cons]
    omega

/-- Packing halves the length. -/
@[simp] theorem length_packNibbles : ∀ nibbles : List (BitVec 4), (packNibbles nibbles).length = nibbles.length / 2
  | [] => rfl
  | [_] => by simp [packNibbles]
  | hi :: lo :: rest => by
    rw [packNibbles, List.length_cons, length_packNibbles rest, List.length_cons, List.length_cons]
    omega

/-- Packing loses no nibble of a sequence of even length. -/
theorem flatMap_byteNibbles_packNibbles :
    ∀ nibbles : List (BitVec 4), nibbles.length % 2 = 0 → (packNibbles nibbles).flatMap byteNibbles = nibbles
  | [], _ => rfl
  | [_], h => by cases h
  | hi :: lo :: rest, h => by
    have hrest : rest.length % 2 = 0 := (Nat.add_mod_right rest.length 2).symm.trans h
    rw [packNibbles, List.flatMap_cons, byteNibbles_append, flatMap_byteNibbles_packNibbles rest hrest]
    rfl

/-! ### The header, the data and the terminator (R132, R134) -/

/-- A nibble of a number's 16-bit word is the number shifted right, modulo 16. -/
theorem extractLsb'_ofNat_16 (n k : Nat) (hk : k + 4 ≤ 16) :
    (BitVec.ofNat 16 n).extractLsb' k 4 = BitVec.ofNat 4 (n / 2 ^ k) := by
  apply BitVec.eq_of_getLsbD_eq
  intro i hi
  have hki : k + i < 16 := by omega
  simp only [BitVec.getLsbD_extractLsb', BitVec.getLsbD_ofNat, Nat.testBit_div_two_pow, hi, hki, Nat.add_comm i k,
    decide_true, Bool.true_and]

/-- The count field is the nibbles of the 16-bit length, the low two for v ≤ 9 and all four for v ≥ 10. -/
theorem headerNibbles_eq_extract (v n : Nat) :
    headerNibbles v n =
      let l := BitVec.ofNat 16 n
      if v ≤ 9 then [0x4, l.extractLsb' 4 4, l.extractLsb' 0 4]
      else [0x4, l.extractLsb' 12 4, l.extractLsb' 8 4, l.extractLsb' 4 4, l.extractLsb' 0 4] := by
  simp [headerNibbles, extractLsb'_ofNat_16]

/-- The bytes of header, data and terminator: the length and 2 more for v ≤ 9, 3 more for v ≥ 10. -/
def contentBytes (v n : Nat) : Nat := n + (if v ≤ 9 then 2 else 3)

/-- The nibble sequence fills them exactly. -/
@[simp] theorem length_codewordNibbles (v : Nat) (value : List Byte) :
    (codewordNibbles v value).length = 2 * contentBytes v value.length := by
  simp only [codewordNibbles, headerNibbles, contentBytes, List.length_append, length_flatMap_byteNibbles, List.length_singleton]
  split <;> simp only [List.length_cons, List.length_nil] <;> omega

/-! ### The pad (R135) -/

@[simp] theorem length_padBytes (count : Nat) : (padBytes count).length = count := by
  simp [padBytes]

theorem getElem?_padBytes {count j : Nat} (h : j < count) :
    (padBytes count)[j]? = some (if j % 2 = 0 then 0xEC else 0x11) := by
  simp [padBytes, h]

/-! ### The buffer (R131) -/

/-- The buffer is the packed nibble sequence and the pad behind it. -/
theorem encodeCodewords_eq (value : List Byte) (v m : Nat) :
    encodeCodewords value v m =
      packNibbles (codewordNibbles v value) ++ padBytes (m - contentBytes v value.length) := by
  simp [encodeCodewords]

/-- Where the nibble sequence fits, the buffer is exactly full. -/
theorem length_encodeCodewords {value : List Byte} {v m : Nat} (h : contentBytes v value.length ≤ m) :
    (encodeCodewords value v m).length = m := by
  simp [encodeCodewords_eq, h]

/-- The nibbles of its first bytes are header, data and terminator. -/
theorem flatMap_byteNibbles_take_encodeCodewords (value : List Byte) (v m : Nat) :
    ((encodeCodewords value v m).take (contentBytes v value.length)).flatMap byteNibbles = codewordNibbles v value := by
  rw [encodeCodewords_eq, List.take_left' (by simp), flatMap_byteNibbles_packNibbles _ (by simp)]

/-- The bytes after them alternate between the two pad bytes. -/
theorem getElem?_encodeCodewords_pad {value : List Byte} {v m j : Nat} (hj : contentBytes v value.length ≤ j) (hjm : j < m) :
    (encodeCodewords value v m)[j]? = some (if (j - contentBytes v value.length) % 2 = 0 then 0xEC else 0x11) := by
  have hlen : (packNibbles (codewordNibbles v value)).length = contentBytes v value.length := by simp
  rw [encodeCodewords_eq, List.getElem?_append_right (hlen ▸ hj), hlen, getElem?_padBytes (by omega)]

/-- What a version's capacity admits fits its data codewords with header and terminator (R114, R133). -/
theorem BlockCfg.FitsRegisters.contentBytes_le {c : BlockCfg} (hc : c.FitsRegisters) {v n : Nat} (hn : n ≤ capacityOf v c) :
    contentBytes v n ≤ dataCodewords c := by
  have hmin := hc.dataMin
  unfold capacityOf at hn
  unfold contentBytes
  split at hn <;> split <;> omega

/-- Settles O46: the nibble sequence fills whole bytes that fit the buffer, packing keeps its nibbles, and the pad fills the rest. -/
theorem codewordBufferIsExactlyFull : Obligations.CodewordBufferIsExactlyFull := by
  unfold Obligations.CodewordBufferIsExactlyFull
  intro lvl v value hl1 hl4 hv1 hv40 hn
  have hc : (lookupCfg lvl v).FitsRegisters := lookupCfg_fits (levelLegal_iff.mpr ⟨hl1, hl4⟩) hv1 hv40
  have hfit := hc.contentBytes_le hn
  have hnibbles := flatMap_byteNibbles_take_encodeCodewords value v (dataCodewords (lookupCfg lvl v))
  rw [codewordNibbles, headerNibbles_eq_extract] at hnibbles
  exact ⟨length_encodeCodewords hfit, hfit, hnibbles, fun j hj hjm => getElem?_encodeCodewords_pad hj hjm⟩

end Sys2Proof.Machine
end

section
/-! PROOFS. The field GF(256) (44_reed_solomon.md R137 to R142): the tables list the powers of x, so multiplying by a nonzero byte is
doubling over and over, and doubling is additive. -/

namespace Sys2Proof.Machine

/-- The byte times x, reduced by 0x11D (R137, R138). -/
def gfDouble (a : Byte) : Byte := if 128 ≤ a.toNat then (a <<< 1) ^^^ 0x1D else a <<< 1

/-- The same on naturals, as R138 computes it with a 9-bit intermediate. -/
theorem gfDouble_toNat : ∀ a : Byte,
    (gfDouble a).toNat = if 2 * a.toNat ≥ 0x100 then (2 * a.toNat) ^^^ 0x11D else 2 * a.toNat := by
  decide +kernel

/-- Every byte is its own negative (R137). -/
theorem byte_xor_self (a : Byte) : a ^^^ a = 0 := BitVec.xor_self

theorem byte_xor_zero (a : Byte) : a ^^^ 0 = a := BitVec.xor_zero

theorem byte_zero_xor (a : Byte) : 0 ^^^ a = a := BitVec.zero_xor

/-- The reduction as a summand: 0x1D where the top bit falls out. -/
theorem gfDouble_eq_xor (a : Byte) : gfDouble a = a <<< 1 ^^^ (if a.msb then 0x1D else 0) := by
  simp only [gfDouble, BitVec.msb_eq_decide, decide_eq_true_eq]
  split
  · rfl
  · exact (byte_xor_zero _).symm

/-- Doubling is additive: the top bit of a sum is the sum of the top bits. -/
theorem gfDouble_xor (a b : Byte) : gfDouble (a ^^^ b) = gfDouble a ^^^ gfDouble b := by
  have hreduce : ∀ p q : Bool, (if (p ^^ q) = true then (0x1D : Byte) else 0) =
      (if p = true then 0x1D else 0) ^^^ (if q = true then 0x1D else 0) := by decide
  simp only [gfDouble_eq_xor, BitVec.msb_xor, BitVec.shiftLeft_xor_distrib, hreduce]
  ac_rfl

/-- The byte times x^n: doubled n times. -/
def gfTimesPow : Nat → Byte → Byte
  | 0, a => a
  | n + 1, a => gfDouble (gfTimesPow n a)

theorem gfTimesPow_add (m n : Nat) (a : Byte) : gfTimesPow (m + n) a = gfTimesPow m (gfTimesPow n a) := by
  induction m with
  | zero => rw [Nat.zero_add, gfTimesPow]
  | succ m ih => rw [Nat.add_right_comm, gfTimesPow, gfTimesPow, ih]

theorem gfTimesPow_xor (n : Nat) (a b : Byte) : gfTimesPow n (a ^^^ b) = gfTimesPow n a ^^^ gfTimesPow n b := by
  induction n with
  | zero => rfl
  | succ n ih => rw [gfTimesPow, ih, gfDouble_xor, gfTimesPow, gfTimesPow]

theorem gfTimesPow_zero (n : Nat) : gfTimesPow n 0 = 0 := by
  induction n with
  | zero => rfl
  | succ n ih =>
    rw [gfTimesPow, ih]
    decide

/-! ### The tables (R138 to R140) -/

/-- Each entry of EXP is the one before it doubled, and after the last one comes the first. -/
theorem exp_succ_mod : ∀ i < 255, Rom.exp ((i + 1) % 255) = gfDouble (Rom.exp i) := by
  decide +kernel

/-- So EXP holds the powers of x, exponents modulo 255 (R141). -/
theorem exp_mod_eq_gfTimesPow (n : Nat) : Rom.exp (n % 255) = gfTimesPow n 1 := by
  induction n with
  | zero => rfl
  | succ n ih =>
    rw [gfTimesPow, ← ih, ← exp_succ_mod _ (Nat.mod_lt n (by decide)), Nat.mod_add_mod]

theorem log_exp : ∀ i < 255, Rom.log (Rom.exp i) = i := by
  decide +kernel

/-- A nonzero byte has no sentinel for its log, and EXP inverts it. -/
theorem log_spec : ∀ a : Byte, a ≠ 0 → Rom.log a < 255 ∧ Rom.exp (Rom.log a) = a := by
  decide +kernel

theorem exp_ne_zero : ∀ i < 255, Rom.exp i ≠ 0 := by
  decide +kernel

/-- Doubling a nonzero byte adds to its log, modulo 255. -/
theorem gfTimesPow_of_ne_zero {a : Byte} (ha : a ≠ 0) (n : Nat) :
    gfTimesPow n a = Rom.exp ((n + Rom.log a) % 255) := by
  obtain ⟨hlt, hexp⟩ := log_spec a ha
  rw [exp_mod_eq_gfTimesPow, gfTimesPow_add, ← exp_mod_eq_gfTimesPow, Nat.mod_eq_of_lt hlt, hexp]

/-- So the powers of x below the 255th are distinct factors. -/
theorem gfTimesPow_add_ne {a : Byte} (ha : a ≠ 0) (n : Nat) {k : Nat} (hk : 0 < k) (hk255 : k < 255) :
    gfTimesPow (n + k) a ≠ gfTimesPow n a := by
  intro heq
  rw [gfTimesPow_of_ne_zero ha, gfTimesPow_of_ne_zero ha] at heq
  have hlog := congrArg Rom.log heq
  rw [log_exp _ (Nat.mod_lt _ (by decide)), log_exp _ (Nat.mod_lt _ (by decide))] at hlog
  omega

/-- The sentinel marks 0 alone (R140). -/
theorem log_eq_sentinel_iff (a : Byte) : Rom.log a = 255 ↔ a = 0 := by
  constructor
  · exact fun hlog => Decidable.byContradiction fun ha => Nat.ne_of_lt (log_spec a ha).1 hlog
  · rintro rfl
    rfl

/-- Settles O47: one entry after the other by doubling, and the two tables checked against each other. -/
theorem expAndLogTables : Obligations.ExpAndLogTables := by
  unfold Obligations.ExpAndLogTables
  refine ⟨rfl, fun i hi1 hi254 => ?_, fun i hi => log_exp i (by omega), rfl⟩
  obtain ⟨k, rfl⟩ := Nat.exists_eq_add_of_le' hi1
  have hexp : Rom.exp (k + 1) = gfDouble (Rom.exp k) := by
    rw [← exp_succ_mod k (by omega), Nat.mod_eq_of_lt (by omega)]
  rw [hexp, Nat.add_sub_cancel, gfDouble_toNat]

/-! ### Multiplication (R142) -/

theorem gfMul_zero_left (a : Byte) : gfMul 0 a = 0 := if_pos (.inl rfl)

theorem gfMul_zero_right (a : Byte) : gfMul a 0 = 0 := if_pos (.inr rfl)

/-- The product of two nonzero bytes is the antilog of the sum of their logs. -/
theorem gfMul_of_ne_zero {a b : Byte} (ha : a ≠ 0) (hb : b ≠ 0) :
    gfMul a b = Rom.exp ((Rom.log a + Rom.log b) % 255) :=
  if_neg (not_or.mpr ⟨ha, hb⟩)

theorem gfMul_ne_zero {a b : Byte} (ha : a ≠ 0) (hb : b ≠ 0) : gfMul a b ≠ 0 := by
  rw [gfMul_of_ne_zero ha hb]
  exact exp_ne_zero _ (Nat.mod_lt _ (by decide))

theorem log_gfMul {a b : Byte} (ha : a ≠ 0) (hb : b ≠ 0) : Rom.log (gfMul a b) = (Rom.log a + Rom.log b) % 255 := by
  rw [gfMul_of_ne_zero ha hb, log_exp _ (Nat.mod_lt _ (by decide))]

/-- Multiplying by a nonzero byte is doubling as often as its log says. -/
theorem gfMul_eq_gfTimesPow {a : Byte} (ha : a ≠ 0) (b : Byte) : gfMul a b = gfTimesPow (Rom.log a) b := by
  by_cases hb : b = 0
  · rw [hb, gfMul_zero_right, gfTimesPow_zero]
  · rw [gfMul_of_ne_zero ha hb, gfTimesPow_of_ne_zero hb]

theorem gfMul_comm (a b : Byte) : gfMul a b = gfMul b a := by
  simp only [gfMul, or_comm, Nat.add_comm]

theorem gfMul_one_left (a : Byte) : gfMul 1 a = a := by
  rw [gfMul_eq_gfTimesPow (by decide)]
  rfl

theorem gfMul_two_left (a : Byte) : gfMul 2 a = gfDouble a := by
  rw [gfMul_eq_gfTimesPow (by decide)]
  rfl

/-- Multiplying by a power of x. -/
theorem gfMul_exp {i : Nat} (hi : i < 255) (a : Byte) : gfMul a (Rom.exp i) = gfTimesPow i a := by
  rw [gfMul_comm, gfMul_eq_gfTimesPow (exp_ne_zero i hi), log_exp i hi]

theorem gfMul_xor (a b c : Byte) : gfMul a (b ^^^ c) = gfMul a b ^^^ gfMul a c := by
  by_cases ha : a = 0
  · rw [ha, gfMul_zero_left, gfMul_zero_left, gfMul_zero_left, byte_xor_self]
  · simp only [gfMul_eq_gfTimesPow ha, gfTimesPow_xor]

theorem xor_gfMul (a b c : Byte) : gfMul (a ^^^ b) c = gfMul a c ^^^ gfMul b c := by
  simp only [gfMul_comm _ c, gfMul_xor]

/-- Associativity: with a zero factor both sides are 0, else the logs add up modulo 255 either way. -/
theorem gfMul_assoc (a b c : Byte) : gfMul (gfMul a b) c = gfMul a (gfMul b c) := by
  by_cases ha : a = 0
  · simp only [ha, gfMul_zero_left]
  by_cases hb : b = 0
  · simp only [hb, gfMul_zero_left, gfMul_zero_right]
  by_cases hc : c = 0
  · simp only [hc, gfMul_zero_right]
  rw [gfMul_of_ne_zero (gfMul_ne_zero ha hb) hc, gfMul_of_ne_zero ha (gfMul_ne_zero hb hc), log_gfMul ha hb, log_gfMul hb hc,
    Nat.mod_add_mod, Nat.add_mod_mod, Nat.add_assoc]

/-- Settles O48: multiplying by a nonzero byte is doubling over and over, which is additive. -/
theorem fieldLaws : Obligations.FieldLaws := by
  unfold Obligations.FieldLaws
  exact fun a b c => ⟨gfMul_comm a b, gfMul_assoc a b c, gfMul_xor a b c, gfMul_one_left a, gfMul_zero_left a, gfMul_two_left a⟩

end Sys2Proof.Machine
end

section
/-! PROOFS. Evaluation of codewords (44_reed_solomon.md R147): Horner's rule is linear in the value it starts from and the bytes it takes
in. From it the roots of the generator polynomials (R143). -/

namespace Sys2Proof.Machine

/-- Horner's rule at x from a value on, over the bytes that follow: evaluation of a codeword whose first bytes are done. -/
def horner (x acc : Byte) (c : List Byte) : Byte := c.foldl (fun acc b => gfMul acc x ^^^ b) acc

@[simp] theorem horner_nil (x acc : Byte) : horner x acc [] = acc := rfl

@[simp] theorem horner_cons (x acc b : Byte) (c : List Byte) : horner x acc (b :: c) = horner x (gfMul acc x ^^^ b) c := rfl

theorem horner_append (x acc : Byte) (c c' : List Byte) : horner x acc (c ++ c') = horner x (horner x acc c) c' :=
  List.foldl_append

/-- The value of a codeword, from 0 on. -/
theorem gfEval_eq_horner (c : List Byte) (x : Byte) : gfEval c x = horner x 0 c := rfl

theorem gfEval_append (c c' : List Byte) (x : Byte) : gfEval (c ++ c') x = horner x (gfEval c x) c' :=
  List.foldl_append

theorem gfEval_cons (b : Byte) (c : List Byte) (x : Byte) : gfEval (b :: c) x = horner x b c := by
  rw [gfEval_eq_horner, horner_cons, gfMul_zero_left, byte_zero_xor]

/-- The value of a sum of two codewords of one length, from a sum of two values on. -/
theorem horner_zipWith_xor (x a a' : Byte) {c c' : List Byte} (hlen : c.length = c'.length) :
    horner x (a ^^^ a') (List.zipWith (· ^^^ ·) c c') = horner x a c ^^^ horner x a' c' := by
  induction c generalizing a a' c' with
  | nil =>
    obtain rfl := List.length_eq_zero_iff.mp hlen.symm
    rfl
  | cons b c ih =>
    obtain ⟨b', c', rfl⟩ := List.exists_cons_of_length_eq_add_one hlen.symm
    have hstep : gfMul (a ^^^ a') x ^^^ (b ^^^ b') = (gfMul a x ^^^ b) ^^^ (gfMul a' x ^^^ b') := by
      rw [xor_gfMul]
      ac_rfl
    rw [List.zipWith_cons_cons, horner_cons, hstep, ih _ _ (Nat.succ.inj hlen), horner_cons, horner_cons]

/-- The value of a multiple. -/
theorem horner_map_gfMul (x k a : Byte) (c : List Byte) : horner x (gfMul k a) (c.map (gfMul k)) = gfMul k (horner x a c) := by
  induction c generalizing a with
  | nil => rfl
  | cons b c ih => rw [List.map_cons, horner_cons, gfMul_assoc, ← gfMul_xor, ih, horner_cons]

/-! ### The generator polynomials (R143) -/

/-- A linear factor multiplies the value by its own. -/
theorem gfEval_genTimes (g : List Byte) (i : Nat) (x : Byte) :
    gfEval (genTimes g i).reverse x = gfMul (gfEval g.reverse x) (x ^^^ Rom.exp i) := by
  have hrev : (genTimes g i).reverse =
      List.zipWith (· ^^^ ·) (g.reverse ++ [0]) (0 :: g.reverse.map (gfMul (Rom.exp i))) := by
    rw [genTimes, List.reverse_zipWith (by simp)]
    simp only [List.reverse_cons, List.reverse_append, List.reverse_nil, List.nil_append, List.cons_append, List.map_reverse,
      gfMul_comm _ (Rom.exp i)]
  have hscale : horner x 0 (g.reverse.map (gfMul (Rom.exp i))) = gfMul (Rom.exp i) (gfEval g.reverse x) := by
    rw [gfEval_eq_horner, ← horner_map_gfMul, gfMul_zero_right]
  calc gfEval (genTimes g i).reverse x
      = horner x (0 ^^^ 0) (List.zipWith (· ^^^ ·) (g.reverse ++ [0]) (0 :: g.reverse.map (gfMul (Rom.exp i)))) := by
        rw [hrev, byte_xor_self, gfEval_eq_horner]
    _ = gfEval (g.reverse ++ [0]) x ^^^ gfEval (0 :: g.reverse.map (gfMul (Rom.exp i))) x :=
        horner_zipWith_xor x 0 0 (by simp)
    _ = gfMul (gfEval g.reverse x) (x ^^^ Rom.exp i) := by
        rw [gfEval_append, horner_cons, horner_nil, byte_xor_zero, gfEval_cons, hscale, gfMul_xor, gfMul_comm (Rom.exp i)]

theorem genPoly_zero : genPoly 0 = [1] := rfl

theorem genPoly_succ (e : Nat) : genPoly (e + 1) = genTimes (genPoly e) e := by
  rw [genPoly, genPoly, List.range_succ, List.foldl_append, List.foldl_cons, List.foldl_nil]

/-- One factor more keeps the polynomial monic and raises its degree by one. -/
theorem genTimes_monic (low : List Byte) (i : Nat) :
    ∃ low', low'.length = low.length + 1 ∧ genTimes (low ++ [1]) i = low' ++ [1] := by
  refine ⟨List.zipWith (· ^^^ ·) (0 :: low) ((low ++ [1]).map (gfMul · (Rom.exp i))), by simp, ?_⟩
  rw [genTimes, ← List.cons_append, List.zipWith_append (by simp)]
  rfl

/-- The generator polynomial is monic of degree e. -/
theorem genPoly_monic (e : Nat) : ∃ low, low.length = e ∧ genPoly e = low ++ [1] := by
  induction e with
  | zero => exact ⟨[], rfl, rfl⟩
  | succ e ih =>
    obtain ⟨low, hlen, heq⟩ := ih
    obtain ⟨low', hlen', heq'⟩ := genTimes_monic low e
    exact ⟨low', by rw [hlen', hlen], by rw [genPoly_succ, heq, heq']⟩

@[simp] theorem genPoly_length (e : Nat) : (genPoly e).length = e + 1 := by
  obtain ⟨low, hlen, heq⟩ := genPoly_monic e
  rw [heq, List.length_append, hlen, List.length_singleton]

/-- The powers of x below the e-th are its roots: one by the last factor, the others by the factors before. -/
theorem genPoly_root {e i : Nat} (hi : i < e) : gfEval (genPoly e).reverse (Rom.exp i) = 0 := by
  induction e with
  | zero => cases hi
  | succ e ih =>
    rw [genPoly_succ, gfEval_genTimes]
    rcases Nat.lt_succ_iff_lt_or_eq.mp hi with hlt | rfl
    · rw [ih hlt, gfMul_zero_left]
    · rw [byte_xor_self, gfMul_zero_right]

/-! ### The coefficients (R144): the generator is a Gaussian binomial, and neighbouring coefficients determine each other -/

theorem getD_zipWith_xor {c c' : List Byte} (hlen : c.length = c'.length) (k : Nat) :
    (List.zipWith (· ^^^ ·) c c').getD k 0 = c.getD k 0 ^^^ c'.getD k 0 := by
  induction c generalizing c' k with
  | nil =>
    obtain rfl := List.length_eq_zero_iff.mp hlen.symm
    exact (byte_xor_self 0).symm
  | cons b c ih =>
    obtain ⟨b', c', rfl⟩ := List.exists_cons_of_length_eq_add_one hlen.symm
    cases k with
    | zero => rfl
    | succ k => exact ih (Nat.succ.inj hlen) k

theorem getD_append_zero (c : List Byte) (k : Nat) : (c ++ [0]).getD k 0 = c.getD k 0 := by
  induction c generalizing k with
  | nil => cases k <;> rfl
  | cons b c ih =>
    cases k with
    | zero => rfl
    | succ k => exact ih k

theorem getD_map_gfMul (c : List Byte) (x : Byte) (k : Nat) : (c.map (gfMul · x)).getD k 0 = gfMul (c.getD k 0) x := by
  induction c generalizing k with
  | nil => exact (gfMul_zero_left x).symm
  | cons b c ih =>
    cases k with
    | zero => rfl
    | succ k => exact ih k

/-- A factor more makes coefficient k of those at k − 1 and k; a 0 before the list shifts it by one place. -/
theorem genPoly_succ_getD {e : Nat} (he : e < 255) (k : Nat) :
    (genPoly (e + 1)).getD k 0 = (0 :: genPoly e).getD k 0 ^^^ gfTimesPow e ((genPoly e).getD k 0) := by
  rw [genPoly_succ, genTimes, getD_zipWith_xor (by simp), getD_append_zero, getD_map_gfMul, gfMul_exp he]

/-- Two sums that each pair off with another, exchanged. -/
theorem xor_exchange {p q r s t u v w : Byte} (hpq : p ^^^ q = r ^^^ s) (htu : t ^^^ u = v ^^^ w) :
    p ^^^ r ^^^ (q ^^^ u) = t ^^^ v ^^^ (s ^^^ w) :=
  calc p ^^^ r ^^^ (q ^^^ u)
      = (p ^^^ q) ^^^ (r ^^^ u) := by ac_rfl
    _ = (r ^^^ r) ^^^ (s ^^^ u) := by rw [hpq]; ac_rfl
    _ = (t ^^^ t) ^^^ (s ^^^ u) := by rw [byte_xor_self, byte_xor_self]
    _ = t ^^^ (t ^^^ u) ^^^ s := by ac_rfl
    _ = t ^^^ v ^^^ (s ^^^ w) := by rw [htu]; ac_rfl

/-- The step from e to e + 1 of the relation below, for three neighbours b, c, d: one hypothesis times x, the other times x^(e+1). -/
theorem neighbours_succ {b c d : Byte} {e k : Nat}
    (hb : gfTimesPow k b ^^^ gfTimesPow (e + 1) b = gfTimesPow (e + k) c ^^^ gfTimesPow e c)
    (hd : gfTimesPow (k + 1) c ^^^ gfTimesPow (e + 1) c = gfTimesPow (e + (k + 1)) d ^^^ gfTimesPow e d) :
    gfTimesPow (k + 1) (b ^^^ gfTimesPow e c) ^^^ gfTimesPow (e + 1 + 1) (b ^^^ gfTimesPow e c) =
      gfTimesPow (e + 1 + (k + 1)) (c ^^^ gfTimesPow e d) ^^^ gfTimesPow (e + 1) (c ^^^ gfTimesPow e d) := by
  have hb' := congrArg (gfTimesPow 1) hb
  have hd' := congrArg (gfTimesPow (e + 1)) hd
  simp only [gfTimesPow_xor, ← gfTimesPow_add, Nat.add_assoc, Nat.add_comm, Nat.add_left_comm] at hb' hd' ⊢
  exact xor_exchange hb' hd'

/-- With α for x and c_k for the coefficient of x^k: (α^k + α^(e+1))·c_(k−1) = α^e·(α^k + 1)·c_k. -/
theorem genPoly_neighbours {e : Nat} (he : e ≤ 255) (k : Nat) :
    gfTimesPow k ((0 :: genPoly e).getD k 0) ^^^ gfTimesPow (e + 1) ((0 :: genPoly e).getD k 0) =
      gfTimesPow (e + k) ((genPoly e).getD k 0) ^^^ gfTimesPow e ((genPoly e).getD k 0) := by
  induction e generalizing k with
  | zero =>
    match k with
    | 0 | 1 => decide
    | k + 2 => simp only [genPoly_zero, List.getD_cons_succ, List.getD_nil, gfTimesPow_zero]
  | succ e ih =>
    have he' : e < 255 := he
    cases k with
    | zero => simp only [List.getD_cons_zero, gfTimesPow_zero, byte_xor_self, Nat.add_zero]
    | succ k =>
      rw [List.getD_cons_succ, genPoly_succ_getD he', genPoly_succ_getD he']
      exact neighbours_succ (ih (Nat.le_of_lt he') k) (ih (Nat.le_of_lt he') (k + 1))

/-- No coefficient is zero: the leading one is 1, and a zero one below a nonzero one would make two powers of x equal. -/
theorem genPoly_getD_ne_zero {e : Nat} (he : e < 255) (j : Nat) {k : Nat} (hk : k + j = e) : (genPoly e).getD k 0 ≠ 0 := by
  induction j generalizing k with
  | zero =>
    obtain ⟨low, hlen, heq⟩ := genPoly_monic e
    have hlead : k = low.length := hk.trans hlen.symm
    rw [heq, hlead, List.getD_eq_getElem?_getD, List.getElem?_concat_length]
    decide
  | succ j ih =>
    intro hzero
    have hrel := genPoly_neighbours (Nat.le_of_lt he) (k + 1)
    rw [List.getD_cons_succ, hzero, gfTimesPow_zero, gfTimesPow_zero] at hrel
    exact gfTimesPow_add_ne (ih (by omega)) e k.succ_pos (by omega) (BitVec.xor_eq_zero_iff.mp hrel.symm)

theorem genPoly_coeff_ne_zero {e : Nat} (he : e < 255) : ∀ a ∈ genPoly e, a ≠ 0 := by
  intro a ha
  obtain ⟨k, hk, rfl⟩ := List.mem_iff_getElem.mp ha
  rw [genPoly_length] at hk
  rw [List.getElem_eq_getD 0]
  exact genPoly_getD_ne_zero he (e - k) (by omega)

/-- Settles O49: factor by factor for the shape and the roots, coefficient by coefficient for the nonzero ones. -/
theorem generatorPolynomials : Obligations.GeneratorPolynomials := by
  unfold Obligations.GeneratorPolynomials
  intro e _ he30
  refine ⟨genPoly_length e, ?_, genPoly_coeff_ne_zero (by omega), fun i hi => genPoly_root hi⟩
  obtain ⟨low, hlen, heq⟩ := genPoly_monic e
  rw [heq, ← hlen, List.getElem?_concat_length]

end Sys2Proof.Machine
end

section
/-! PROOFS. The Reed-Solomon property (44_reed_solomon.md R145 to R147): a round of the division replaces the remainder by x times it plus
a multiple of the generator, so data followed by remainder keeps every root of the generator. -/

namespace Sys2Proof.Machine

/-- What one place takes in: the feedback times a nonzero coefficient, nothing where the feedback is zero (R140). -/
theorem feedback_eq {a : Byte} (ha : a ≠ 0) (f shifted : Byte) :
    (if Rom.log f = 255 then shifted else shifted ^^^ Rom.exp ((Rom.log f + Rom.log a) % 255)) = shifted ^^^ gfMul f a := by
  simp only [log_eq_sentinel_iff]
  split
  next hf => rw [hf, gfMul_zero_left, byte_xor_zero]
  next hf => rw [gfMul_of_ne_zero hf ha]

/-- Where no coefficient is zero, a round shifts the remainder and adds the generator without its leading term, times the feedback. -/
theorem rsRound_eq {low : List Byte} (hlow : ∀ a ∈ low, a ≠ 0) {r : List Byte} (hlen : low.length = r.length + 1) (r0 d : Byte) :
    rsRound ((low ++ [1]).map Rom.log) (r.length + 1) (r0 :: r) d =
      List.zipWith (· ^^^ ·) (r ++ [0]) (low.reverse.map (gfMul (d ^^^ r0))) := by
  refine List.ext_getElem (by simp [hlen]) fun k hk hk' => ?_
  rw [rsRound_length] at hk
  have hklow : k < low.reverse.length := by rwa [List.length_reverse, hlen]
  have hcoeff : ((low ++ [1]).map Rom.log).getD (r.length + 1 - 1 - k) 0 = Rom.log low.reverse[k] := by
    have hlt : r.length + 1 - 1 - k < low.length := by omega
    rw [← List.getElem_eq_getD 0 (h := by simp only [List.length_map, List.length_append]; omega), List.getElem_map,
      List.getElem_append_left hlt]
    simp only [List.getElem_reverse, hlen]
  have hshift : (if k + 1 < r.length + 1 then (r0 :: r).getD (k + 1) 0 else 0) = (r ++ [0])[k]'(by simpa using hk) := by
    rw [List.getElem_eq_getD 0, getD_append_zero]
    split
    next => rfl
    next hge => rw [List.getD_eq_getElem?_getD, List.getElem?_eq_none (by omega), Option.getD_none]
  have hne : low.reverse[k] ≠ 0 := hlow _ (List.mem_reverse.mp (List.getElem_mem _))
  simp only [rsRound, List.getElem_map, List.getElem_range, List.getElem_zipWith, hcoeff, hshift, List.getD_cons_zero]
  exact feedback_eq hne ..

/-- A round keeps the roots of the generator. -/
theorem horner_rsRound {low : List Byte} (hlow : ∀ a ∈ low, a ≠ 0) {x : Byte} (hroot : gfEval (low ++ [1]).reverse x = 0)
    {r : List Byte} (hlen : r.length = low.length) (hpos : 0 < low.length) {acc : Byte} (hr : horner x acc r = 0) (d : Byte) :
    horner x (gfMul acc x ^^^ d) (rsRound ((low ++ [1]).map Rom.log) low.length r d) = 0 := by
  obtain ⟨r0, r, rfl⟩ := List.exists_cons_of_length_pos (hlen ▸ hpos)
  have hshift : horner x (gfMul acc x ^^^ r0) (r ++ [0]) = 0 := by
    rw [horner_append, ← horner_cons, hr, horner_cons, gfMul_zero_left, byte_xor_self, horner_nil]
  have hmul : horner x (d ^^^ r0) (low.reverse.map (gfMul (d ^^^ r0))) = 0 := by
    rw [List.reverse_append, List.reverse_singleton, List.singleton_append, gfEval_cons] at hroot
    have h := horner_map_gfMul x (d ^^^ r0) 1 low.reverse
    rwa [hroot, gfMul_zero_right, gfMul_comm _ 1, gfMul_one_left] at h
  have hacc : gfMul acc x ^^^ d = (gfMul acc x ^^^ r0) ^^^ (d ^^^ r0) := by
    rw [BitVec.xor_comm d, ← BitVec.xor_assoc, BitVec.xor_assoc _ r0 r0, byte_xor_self, byte_xor_zero]
  rw [← hlen, List.length_cons, rsRound_eq hlow hlen.symm, hacc, horner_zipWith_xor x _ _ (by simpa using hlen), hshift, hmul,
    byte_xor_self]

/-- So does the whole division: data followed by remainder keeps the roots of the generator. -/
theorem horner_foldl_rsRound {low : List Byte} (hlow : ∀ a ∈ low, a ≠ 0) {x : Byte} (hroot : gfEval (low ++ [1]).reverse x = 0)
    (hpos : 0 < low.length) (data : List Byte) {r : List Byte} (hlen : r.length = low.length) {acc : Byte}
    (hr : horner x acc r = 0) :
    horner x acc (data ++ data.foldl (rsRound ((low ++ [1]).map Rom.log) low.length) r) = 0 := by
  induction data generalizing r acc with
  | nil => exact hr
  | cons d data ih =>
    rw [List.cons_append, horner_cons, List.foldl_cons]
    exact ih (rsRound_length ..) (horner_rsRound hlow hroot hlen hpos hr d)

/-- The remainder the division starts from has value 0. -/
theorem horner_replicate_zero (x : Byte) (n : Nat) : horner x 0 (List.replicate n 0) = 0 := by
  induction n with
  | zero => rfl
  | succ n ih => rw [List.replicate_succ, horner_cons, gfMul_zero_left, byte_xor_self, ih]

/-- Data followed by its e ECC bytes vanishes at the first e powers of x (R147). -/
theorem gfEval_append_rsDivide (data : List Byte) {e j : Nat} (he30 : e ≤ 30) (hj : j < e) :
    gfEval (data ++ rsDivide data e) (Rom.exp j) = 0 := by
  obtain ⟨low, hlen, heq⟩ := genPoly_monic e
  have hne : ∀ a ∈ low, a ≠ 0 := fun a ha =>
    genPoly_coeff_ne_zero (by omega) a (heq ▸ List.mem_append_left [1] ha)
  have hroot : gfEval (low ++ [1]).reverse (Rom.exp j) = 0 := heq ▸ genPoly_root hj
  subst hlen
  rw [rsDivide, genLog, heq, gfEval_eq_horner]
  exact horner_foldl_rsRound hne hroot (Nat.zero_lt_of_lt hj) data List.length_replicate (horner_replicate_zero ..)

/-! ### The blocks of a symbol (R146) -/

/-- Pieces of one length put end to end: the b-th stands at b times that length. -/
theorem take_drop_flatMap_of_length {f : Nat → List Byte} {e : Nat} (hf : ∀ i, (f i).length = e) (is : List Nat) {b : Nat}
    (hb : b < is.length) : ((is.flatMap f).drop (b * e)).take e = f is[b] := by
  induction is generalizing b with
  | nil => cases hb
  | cons i is ih =>
    rw [List.flatMap_cons]
    cases b with
    | zero => rw [Nat.zero_mul, List.drop_zero, List.take_left' (hf i), List.getElem_cons_zero]
    | succ b =>
      rw [Nat.succ_mul, Nat.add_comm, ← List.drop_drop, List.drop_left' (hf i), ih (Nat.lt_of_succ_lt_succ hb), List.getElem_cons_succ]

@[simp] theorem rsBlocks_length (cw : List Byte) (c : BlockCfg) : (rsBlocks cw c).length = c.e * numBlocks c := by
  simp only [rsBlocks, List.length_flatMap, rsDivide_length, List.map_const', List.sum_replicate_nat, List.length_range]
  exact Nat.mul_comm ..

/-- ECCBUF holds the ECC bytes of block b at b·e. -/
theorem take_drop_rsBlocks (cw : List Byte) (c : BlockCfg) {b : Nat} (hb : b < numBlocks c) :
    ((rsBlocks cw c).drop (b * c.e)).take c.e = rsDivide (blockData cw c b) c.e := by
  rw [rsBlocks, take_drop_flatMap_of_length (fun _ => rsDivide_length ..) _ (by simpa using hb), List.getElem_range]

/-- Settles O50: every round of the division keeps the roots of the generator, and a block's codeword is such a division's. -/
theorem codewordsHaveZeroSyndrome : Obligations.CodewordsHaveZeroSyndrome := by
  unfold Obligations.CodewordsHaveZeroSyndrome
  refine ⟨fun data e _ he30 => ⟨rsDivide_length data e, fun j hj => gfEval_append_rsDivide data he30 hj⟩,
    fun c cw _ he30 => ⟨rsBlocks_length cw c, fun b j hb hj => ?_⟩⟩
  rw [take_drop_rsBlocks cw c hb]
  exact gfEval_append_rsDivide (blockData cw c b) he30 hj

end Sys2Proof.Machine
end

section
/-! PROOFS. The interleaver (45_interleave.md R148 to R150): the stream is three runs of rounds end to end, and a round takes one byte of
every block, so position q of a run is the byte of round q / nb and block q % nb. -/

namespace Sys2Proof.Machine

/-! ### Rounds over the blocks -/

/-- So many rounds over so many blocks. -/
theorem length_flatMap_rounds (byte : Nat → Nat → Byte) (rounds nb : Nat) :
    ((List.range rounds).flatMap fun i => (List.range nb).map (byte i)).length = rounds * nb := by
  simp only [List.length_flatMap, List.length_map, List.length_range, List.map_const', List.sum_replicate_nat]

/-- Position q of the rounds is what round q / nb takes from block q % nb. -/
theorem getElem?_flatMap_rounds (byte : Nat → Nat → Byte) {rounds nb q : Nat} (hq : q < rounds * nb) :
    ((List.range rounds).flatMap fun i => (List.range nb).map (byte i))[q]? = some (byte (q / nb) (q % nb)) := by
  have hnb : 0 < nb := Nat.pos_of_lt_mul_left hq
  have hround := take_drop_flatMap_of_length (f := fun i => (List.range nb).map (byte i)) (e := nb) (by simp) (List.range rounds)
    (b := q / nb) (by rw [List.length_range]; exact Nat.div_lt_of_lt_mul (Nat.mul_comm .. ▸ hq))
  rw [List.getElem_range] at hround
  generalize (List.range rounds).flatMap (fun i => (List.range nb).map (byte i)) = stream at hround ⊢
  calc stream[q]?
      = stream[q / nb * nb + q % nb]? := by rw [Nat.div_add_mod']
    _ = ((stream.drop (q / nb * nb)).take nb)[q % nb]? := by
      rw [List.getElem?_take_of_lt (Nat.mod_lt q hnb), List.getElem?_drop]
    _ = some (byte (q / nb) (q % nb)) := by
      rw [hround, List.getElem?_map, List.getElem?_range (Nat.mod_lt q hnb), Option.map_some]

/-! ### The three runs of the stream (R148) -/

@[simp] theorem dataRounds_length (cw : List Byte) (c : BlockCfg) : (dataRounds cw c).length = c.d * numBlocks c :=
  length_flatMap_rounds ..

@[simp] theorem longRound_length (cw : List Byte) (c : BlockCfg) : (longRound cw c).length = c.nb2 := by
  rw [longRound, List.length_map, List.length_range]

@[simp] theorem eccRounds_length (ecc : List Byte) (c : BlockCfg) : (eccRounds ecc c).length = c.e * numBlocks c :=
  length_flatMap_rounds ..

theorem getElem?_dataRounds (cw : List Byte) {c : BlockCfg} {q : Nat} (hq : q < c.d * numBlocks c) :
    (dataRounds cw c)[q]? = some (cw.getD (blockStart c (q % numBlocks c) + q / numBlocks c) 0) :=
  getElem?_flatMap_rounds (fun i b => cw.getD (blockStart c b + i) 0) hq

theorem getElem?_longRound (cw : List Byte) {c : BlockCfg} {j : Nat} (hj : j < c.nb2) :
    (longRound cw c)[j]? = some (cw.getD (blockStart c (c.nb1 + j) + c.d) 0) := by
  rw [longRound, List.getElem?_map, List.getElem?_range hj, Option.map_some]

theorem getElem?_eccRounds (ecc : List Byte) {c : BlockCfg} {q : Nat} (hq : q < c.e * numBlocks c) :
    (eccRounds ecc c)[q]? = some (ecc.getD (q % numBlocks c * c.e + q / numBlocks c) 0) :=
  getElem?_flatMap_rounds (fun i b => ecc.getD (b * c.e + i) 0) hq

/-! ### Where each run stands in the stream (R149, R150) -/

/-- The first two runs hold M bytes. -/
theorem dataCodewords_eq (c : BlockCfg) : dataCodewords c = c.d * numBlocks c + c.nb2 := rfl

/-- The ECC bytes follow the M data bytes. -/
theorem totalCodewords_eq (c : BlockCfg) : totalCodewords c = dataCodewords c + c.e * numBlocks c := by
  rw [totalCodewords, dataCodewords, numBlocks, Nat.add_mul, Nat.add_right_comm]

theorem interleave_length (cw ecc : List Byte) (c : BlockCfg) : (interleave cw ecc c).length = totalCodewords c := by
  simp only [interleave, List.length_append, dataRounds_length, longRound_length, eccRounds_length, totalCodewords_eq,
    dataCodewords_eq]

theorem getElem?_interleave_dataRounds (cw ecc : List Byte) {c : BlockCfg} {q : Nat} (hq : q < c.d * numBlocks c) :
    (interleave cw ecc c)[q]? = (dataRounds cw c)[q]? := by
  rw [interleave, List.append_assoc, List.getElem?_append_left (by rwa [dataRounds_length])]

theorem getElem?_interleave_longRound (cw ecc : List Byte) {c : BlockCfg} {q : Nat} (hq : c.d * numBlocks c ≤ q)
    (hqm : q < dataCodewords c) : (interleave cw ecc c)[q]? = (longRound cw c)[q - c.d * numBlocks c]? := by
  rw [interleave, List.getElem?_append_left (by simpa [dataCodewords_eq] using hqm),
    List.getElem?_append_right (by rwa [dataRounds_length]), dataRounds_length]

theorem getElem?_interleave_eccRounds (cw ecc : List Byte) {c : BlockCfg} {q : Nat} (hq : dataCodewords c ≤ q) :
    (interleave cw ecc c)[q]? = (eccRounds ecc c)[q - dataCodewords c]? := by
  have hlen : (dataRounds cw c ++ longRound cw c).length = dataCodewords c := by simp [dataCodewords_eq]
  rw [interleave, List.getElem?_append_right (hlen ▸ hq), hlen]

/-- Settles O51: each position falls into one of the three runs, and each run is read by its rounds. -/
theorem interleavedPositions : Obligations.InterleavedPositions := by
  unfold Obligations.InterleavedPositions
  intro c cw ecc _
  refine ⟨interleave_length cw ecc c, fun q hq => ?_, fun q (hq : c.d * numBlocks c ≤ q) hqm => ?_, fun q hqm hqt => ?_⟩
  · exact (getElem?_interleave_dataRounds cw ecc hq).trans (getElem?_dataRounds cw hq)
  · have hj : q - c.d * numBlocks c < c.nb2 := by rw [dataCodewords_eq] at hqm; omega
    rw [getElem?_interleave_longRound cw ecc hq hqm, getElem?_longRound cw hj, blockStart, Nat.add_sub_cancel_left]
    rfl
  · have hecc : q - dataCodewords c < c.e * numBlocks c := by rw [totalCodewords_eq] at hqt; omega
    exact (getElem?_interleave_eccRounds cw ecc hqm).trans (getElem?_eccRounds ecc hecc)

end Sys2Proof.Machine
end

section
/-! PROOFS. The packer (46_pack.md R151 to R153): the path visits no cell twice and stays inside the symbol, so the bit paired with a cell
is the only one that can make it dark. -/

namespace Sys2Proof.Machine

/-! ### The path (R151) -/

/-- The right columns of the pairs lie between column 1 and the starting column. -/
theorem pairColumns_bounds {fuel right r : Nat} (hr : r ∈ pairColumns fuel right) : 1 ≤ r ∧ r ≤ right := by
  induction fuel generalizing right with
  | zero => simp [pairColumns] at hr
  | succ fuel ih =>
    unfold pairColumns at hr
    split at hr
    case isFalse => simp at hr
    dsimp only at hr
    rcases List.mem_cons.mp hr with rfl | hr
    · split <;> omega
    · have := ih hr
      split at this <;> omega

/-- Each pair lies at least two columns left of the pairs before it. -/
theorem pairColumns_pairwise (fuel right : Nat) : (pairColumns fuel right).Pairwise fun r r' => r' + 2 ≤ r := by
  induction fuel generalizing right with
  | zero => exact .nil
  | succ fuel ih =>
    unfold pairColumns
    split
    case isFalse => exact .nil
    refine List.pairwise_cons.mpr ⟨fun r' hr' => ?_, ih _⟩
    have := pairColumns_bounds hr'
    omega

/-- The pairs cover every column up to the starting column but the timing column 6, which the walk steps over. -/
theorem exists_pairColumns_iff {fuel right x : Nat} (hfuel : right ≤ fuel) (hright : right % 2 = 0 ↔ right = 0 ∨ 6 ≤ right) :
    (∃ r ∈ pairColumns fuel right, x = r ∨ x = r - 1) ↔ 0 < right ∧ x ≤ right ∧ x ≠ 6 := by
  induction fuel generalizing right with
  | zero => simp only [pairColumns, List.not_mem_nil, false_and, exists_false, false_iff]; omega
  | succ fuel ih =>
    unfold pairColumns
    split
    case isFalse => simp only [List.not_mem_nil, false_and, exists_false, false_iff]; omega
    simp only [List.mem_cons, exists_eq_or_imp]
    split <;> rw [ih (by omega) (by omega)] <;> omega

/-- A pair has the cells of its two columns, in either direction. -/
theorem mem_pairCells {w r : Nat} {c : Cell} : c ∈ pairCells w r ↔ (c.1 = r ∨ c.1 = r - 1) ∧ c.2 < w := by
  obtain ⟨x, y⟩ := c
  simp only [pairCells, List.mem_flatMap, List.mem_range, List.mem_cons, List.not_mem_nil, or_false, Prod.mk.injEq]
  constructor
  · rintro ⟨vert, hvert, h⟩
    split at h <;> omega
  · rintro ⟨hx, hy⟩
    refine ⟨if isUpward r then w - 1 - y else y, ?_, ?_⟩ <;> split <;> omega

theorem pairCells_nodup {w r : Nat} (hr : 1 ≤ r) : (pairCells w r).Nodup := by
  refine List.nodup_flatMap.mpr ⟨fun vert _ => ?_, List.pairwise_lt_range.imp_of_mem fun {a b} ha hb hab => ?_⟩
  · simp; omega
  · have ha := List.mem_range.mp ha
    have hb := List.mem_range.mp hb
    split <;> simp <;> omega

theorem mem_path {excl : Bitmap} {w : Nat} {c : Cell} :
    c ∈ path excl w ↔ (∃ r ∈ pairColumns w (w - 1), c ∈ pairCells w r) ∧ isReserved excl c = false := by
  simp [path]

/-- No column stands in two pairs, so no cell is visited twice. -/
theorem path_nodup (excl : Bitmap) (w : Nat) : (path excl w).Nodup := by
  refine (List.nodup_flatMap.mpr ⟨fun r hr => pairCells_nodup (pairColumns_bounds hr).1, ?_⟩).filter _
  refine (pairColumns_pairwise w (w - 1)).imp fun {r r'} hr => List.disjoint_left.mpr fun c hc hc' => ?_
  rw [mem_pairCells] at hc hc'
  omega

theorem path_inside {excl : Bitmap} {w : Nat} {c : Cell} (hc : c ∈ path excl w) : c.1 < w ∧ c.2 < w := by
  obtain ⟨⟨r, hr, hcell⟩, -⟩ := mem_path.mp hc
  have := pairColumns_bounds hr
  have := mem_pairCells.mp hcell
  omega

/-! ### The stream, bit by bit (R152) -/

@[simp] theorem byteBits_length (b : Byte) : (byteBits b).length = 8 := by simp [byteBits]

/-- Bit i of the stream is bit 7 − i mod 8 of byte i / 8. -/
theorem getElem?_flatMap_byteBits (ilv : List Byte) (i : Nat) :
    (ilv.flatMap byteBits)[i]? = if i < 8 * ilv.length then some ((ilv.getD (i / 8) 0).getLsbD (7 - i % 8)) else none := by
  induction ilv generalizing i with
  | nil => simp
  | cons b ilv ih =>
    rw [List.flatMap_cons]
    by_cases hi : i < 8
    · rw [List.getElem?_append_left (by simpa using hi), Nat.div_eq_of_lt hi, Nat.mod_eq_of_lt hi, if_pos (by simp; omega)]
      simp [byteBits, hi]
    · obtain ⟨j, rfl⟩ := Nat.exists_eq_add_of_le (Nat.le_of_not_lt hi)
      have hlen : 8 + j < 8 * (b :: ilv).length ↔ j < 8 * ilv.length := by rw [List.length_cons]; omega
      rw [List.getElem?_append_right (by simp), byteBits_length, Nat.add_sub_cancel_left, ih, Nat.add_div_left _ (by decide)]
      simp only [hlen, Nat.add_mod_left, List.getD_cons_succ]

/-! ### The packed matrix (R152, R153) -/

/-- An element that stands once in a list is zipped with the element at its place. -/
theorem mem_zip_iff_of_nodup {α β : Type} {l : List α} {m : List β} (hl : l.Nodup) {i : Nat} {a : α} (ha : l[i]? = some a) (b : β) :
    (a, b) ∈ l.zip m ↔ m[i]? = some b := by
  simp only [List.mem_iff_getElem?, List.getElem?_zip_eq_some]
  refine ⟨fun ⟨j, haj, hbj⟩ => ?_, fun hb => ⟨i, ha, hb⟩⟩
  obtain ⟨hi, -⟩ := List.getElem?_eq_some_iff.mp ha
  rwa [(List.getElem?_inj hi hl).mp (ha.trans haj.symm)]

/-- A cell of the symbol is dark if it was, or if a 1 is written to it. -/
theorem cell_foldl_setDark_iff {w : Nat} {c : Cell} (hc : c.1 < w) {ps : List (Cell × Bool)} (hps : ∀ p ∈ ps, p.1.1 < w) (m : Bitmap) :
    Bitmap.cell (ps.foldl (fun m p => if p.2 then Bitmap.setDark m w p.1 else m) m) w c = true ↔
      Bitmap.cell m w c = true ∨ (c, true) ∈ ps := by
  induction ps generalizing m with
  | nil => simp
  | cons p ps ih =>
    obtain ⟨d, bit⟩ := p
    obtain ⟨hd, hps⟩ := List.forall_mem_cons.mp hps
    have hindex : cellIndex w d = cellIndex w c ↔ c = d := ⟨fun h => (cellIndex_inj hd hc h).symm, fun h => h ▸ rfl⟩
    rw [List.foldl_cons, ih hps, List.mem_cons]
    cases bit <;> simp [Bitmap.cell, Bitmap.setDark, hindex, or_assoc]

theorem cell_pack_iff {s : Scratch} {ilv : List Byte} {w : Nat} {c : Cell} (hc : c.1 < w) :
    Bitmap.cell (pack s ilv w) w c = true ↔
      Bitmap.cell s.mod w c = true ∨ (c, true) ∈ (path s.excl w).zip (ilv.flatMap byteBits) :=
  cell_foldl_setDark_iff hc (fun _ hp => (path_inside (List.of_mem_zip hp).1).1) s.mod

/-- Settles O52: a cell of the path is light before and is written its own bit only; a reserved cell is on no path. -/
theorem packerFollowsThePath : Obligations.PackerFollowsThePath := by
  unfold Obligations.PackerFollowsThePath
  intro v ilv _ w lay
  refine ⟨fun i c hi => ?_, fun x y hx hy hreserved => ?_⟩
  · have hpath : c ∈ path lay.excl w := List.mem_of_getElem? hi
    obtain ⟨hx, hy⟩ := path_inside hpath
    have hlight : ¬ Bitmap.cell lay.mod w c = true := fun hdark =>
      Bool.false_ne_true ((mem_path.mp hpath).2.symm.trans (layoutReservesEveryDarkCell v c.1 c.2 hx hy hdark))
    rw [Bool.eq_iff_iff, cell_pack_iff hx, or_iff_right hlight, mem_zip_iff_of_nodup (path_nodup _ _) hi, getElem?_flatMap_byteBits]
    simp
  · have hoff : ((x, y), true) ∉ (path lay.excl w).zip (ilv.flatMap byteBits) := fun hmem =>
      Bool.false_ne_true ((mem_path.mp (List.of_mem_zip hmem).1).2.symm.trans hreserved)
    rw [Bool.eq_iff_iff, cell_pack_iff hx, or_iff_left hoff]

end Sys2Proof.Machine
end

section
/-! PROOFS. The number of free cells of a symbol (46_pack.md R153). The reserved cells of the left nine columns and those of the other
columns are products of ranges, so they are counted by multiplication; the table is consulted for the number of alignment centres only. -/

namespace Sys2Proof.Machine

/-! ### The rows and columns of the alignment patterns and the version blocks -/

/-- The coordinates of the alignment centres but 6, that of the timing patterns. -/
def offTimingCoords (v : Nat) : List Nat := (alignCoords v).filter (· ≠ 6)

/-- Those of them that make an alignment centre on a timing pattern (R125). -/
def innerCoords (v : Nat) : List Nat := (offTimingCoords v).filter (· ≠ symbolWidth v - 7)

/-- The rows (or the columns) of the alignment patterns whose centres have these coordinates (R122). -/
def alignBand (as : List Nat) : Finset Nat := as.toFinset.biUnion fun a => Finset.Ico (a - 2) (a + 3)

/-- The three rows (or columns) next to the separators that the version blocks take (R128). -/
def versionBand (v : Nat) : Finset Nat := if 7 ≤ v then Finset.Ico (symbolWidth v - 11) (symbolWidth v - 8) else ∅

theorem mem_offTimingCoords {v a : Nat} : a ∈ offTimingCoords v ↔ a ∈ alignCoords v ∧ a ≠ 6 := by simp [offTimingCoords]

theorem mem_innerCoords {v a : Nat} : a ∈ innerCoords v ↔ a ∈ offTimingCoords v ∧ a ≠ symbolWidth v - 7 := by simp [innerCoords]

theorem mem_alignBand {as : List Nat} {k : Nat} : k ∈ alignBand as ↔ ∃ a ∈ as, dist a k ≤ 2 := by
  simp only [alignBand, Finset.mem_biUnion, List.mem_toFinset, Finset.mem_Ico, dist]
  exact exists_congr fun a => and_congr_right fun _ => by omega

theorem mem_versionBand {v k : Nat} : k ∈ versionBand v ↔ 7 ≤ v ∧ symbolWidth v ≤ k + 11 ∧ k + 9 ≤ symbolWidth v := by
  have hw : 17 ≤ symbolWidth v := Nat.le_add_right ..
  unfold versionBand
  split <;> simp <;> omega

/-- Where the table places the coordinates (R125): a version with any has 6, and the others lie right of the left finder; the last is
w − 7 and the others lie left of the version block. -/
theorem alignCoords_placed : ∀ v ≤ 40, ∀ a ∈ alignCoords v, 6 ∈ alignCoords v ∧
    (a ≠ 6 → 11 ≤ a ∧ (a + 7 = symbolWidth v ∨ a + 14 ≤ symbolWidth v)) := by
  decide +kernel

/-- Two alignment patterns with different coordinates do not touch: the forty rows of the table. -/
theorem alignCoords_apart : ∀ v ≤ 40, (alignCoords v).Pairwise (· + 5 ≤ ·) := by
  decide +kernel

theorem offTimingBand_bounds {v k : Nat} (hv40 : v ≤ 40) (hk : k ∈ alignBand (offTimingCoords v)) : 9 ≤ k ∧ k + 5 ≤ symbolWidth v := by
  obtain ⟨a, ha, hd⟩ := mem_alignBand.mp hk
  obtain ⟨ha, ha6⟩ := mem_offTimingCoords.mp ha
  have := (alignCoords_placed v hv40 a ha).2 ha6
  simp only [dist] at hd
  omega

theorem innerBand_bounds {v k : Nat} (hv40 : v ≤ 40) (hk : k ∈ alignBand (innerCoords v)) : 9 ≤ k ∧ k + 12 ≤ symbolWidth v := by
  obtain ⟨a, ha, hd⟩ := mem_alignBand.mp hk
  obtain ⟨ha, hlast⟩ := mem_innerCoords.mp ha
  obtain ⟨ha, ha6⟩ := mem_offTimingCoords.mp ha
  have := (alignCoords_placed v hv40 a ha).2 ha6
  simp only [dist] at hd
  omega

/-- Patterns that do not touch take five rows each. -/
theorem alignBand_card {as : List Nat} (h2 : ∀ a ∈ as, 2 ≤ a) (hapart : as.Pairwise (· + 5 ≤ ·)) :
    (alignBand as).card = 5 * as.length := by
  induction as with
  | nil => rfl
  | cons a as ih =>
    obtain ⟨ha, has⟩ := List.pairwise_cons.mp hapart
    obtain ⟨ha2, has2⟩ := List.forall_mem_cons.mp h2
    have hdisjoint : Disjoint (Finset.Ico (a - 2) (a + 3)) (alignBand as) := Finset.disjoint_left.mpr fun k hk hk' => by
      obtain ⟨b, hb, hd⟩ := mem_alignBand.mp hk'
      have := ha b hb
      simp only [Finset.mem_Ico, dist] at hk hd
      omega
    have hcons : alignBand (a :: as) = Finset.Ico (a - 2) (a + 3) ∪ alignBand as := by simp [alignBand, Finset.biUnion_insert]
    rw [hcons, Finset.card_union_of_disjoint hdisjoint, Nat.card_Ico, ih has2 has, List.length_cons]
    omega

theorem offTimingBand_card {v : Nat} (hv40 : v ≤ 40) : (alignBand (offTimingCoords v)).card = 5 * (offTimingCoords v).length :=
  alignBand_card (fun a ha => (alignCoords_inside v hv40 a (mem_offTimingCoords.mp ha).1).1) ((alignCoords_apart v hv40).filter _)

theorem innerBand_card {v : Nat} (hv40 : v ≤ 40) : (alignBand (innerCoords v)).card = 5 * (innerCoords v).length := by
  refine alignBand_card (fun a ha => (alignCoords_inside v hv40 a ?_).1) (((alignCoords_apart v hv40).filter _).filter _)
  exact (mem_offTimingCoords.mp (mem_innerCoords.mp ha).1).1

theorem versionBand_card (v : Nat) : (versionBand v).card = if 7 ≤ v then 3 else 0 := by
  have hw : 17 ≤ symbolWidth v := Nat.le_add_right ..
  unfold versionBand
  split
  · rw [Nat.card_Ico]; omega
  · rfl

/-! ### The reserved cells by ranges -/

/-- A finder with its separators is a square in its corner (R120, R121). -/
theorem exists_finderCentres_iff {w : Nat} (hw : 8 ≤ w) {c : Cell} (hx : c.1 < w) (hy : c.2 < w) :
    (∃ f ∈ finderCentres w, cellDist f c ≤ 4) ↔
      (c.1 ≤ 7 ∧ c.2 ≤ 7) ∨ (w ≤ c.1 + 8 ∧ c.2 ≤ 7) ∨ (c.1 ≤ 7 ∧ w ≤ c.2 + 8) := by
  simp only [finderCentres, List.mem_cons, List.not_mem_nil, or_false, exists_eq_or_imp, exists_eq_left, cellDist, dist]
  omega

/-- The alignment patterns: those off the timing patterns, those on column 6, and those on row 6 (R122 to R125). -/
theorem exists_listedCentres_iff {v : Nat} (hv40 : v ≤ 40) {c : Cell} : (∃ a ∈ listedCentres v, cellDist a c ≤ 2) ↔
    (c.1 ∈ alignBand (offTimingCoords v) ∧ c.2 ∈ alignBand (offTimingCoords v)) ∨
    ((4 ≤ c.1 ∧ c.1 ≤ 8) ∧ c.2 ∈ alignBand (innerCoords v)) ∨ (c.1 ∈ alignBand (innerCoords v) ∧ (4 ≤ c.2 ∧ c.2 ≤ 8)) := by
  have hsix {k : Nat} : dist 6 k ≤ 2 ↔ 4 ≤ k ∧ k ≤ 8 := by simp only [dist]; omega
  simp only [mem_alignBand, mem_innerCoords, mem_offTimingCoords, ← hsix]
  constructor
  · rintro ⟨⟨a, b⟩, hab, hd⟩
    obtain ⟨⟨ha, hb⟩, hcorner⟩ := mem_listedCentres.mp hab
    simp only [List.mem_cons, List.not_mem_nil, or_false, Prod.mk.injEq, not_or] at hcorner
    obtain ⟨hda, hdb⟩ := Nat.max_le.mp hd
    by_cases ha6 : a = 6
    · exact .inr (.inl ⟨ha6 ▸ hda, b, ⟨⟨hb, by omega⟩, by omega⟩, hdb⟩)
    by_cases hb6 : b = 6
    · exact .inr (.inr ⟨⟨a, ⟨⟨ha, ha6⟩, by omega⟩, hda⟩, hb6 ▸ hdb⟩)
    · exact .inl ⟨⟨a, ⟨ha, ha6⟩, hda⟩, b, ⟨hb, hb6⟩, hdb⟩
  · rintro (⟨⟨a, ⟨ha, ha6⟩, hda⟩, b, ⟨hb, hb6⟩, hdb⟩ |
      ⟨hda, b, ⟨⟨hb, hb6⟩, hlast⟩, hdb⟩ | ⟨⟨a, ⟨⟨ha, ha6⟩, hlast⟩, hda⟩, hdb⟩)
    · exact ⟨(a, b), mem_listedCentres.mpr ⟨⟨ha, hb⟩, by simp; omega⟩, Nat.max_le.mpr ⟨hda, hdb⟩⟩
    · exact ⟨(6, b), mem_listedCentres.mpr ⟨⟨(alignCoords_placed v hv40 b hb).1, hb⟩, by simp; omega⟩, Nat.max_le.mpr ⟨hda, hdb⟩⟩
    · exact ⟨(a, 6), mem_listedCentres.mpr ⟨⟨ha, (alignCoords_placed v hv40 a ha).1⟩, by simp; omega⟩, Nat.max_le.mpr ⟨hda, hdb⟩⟩

/-- `structuralReserved` by ranges: finders, alignment patterns, timing patterns, format strips, version blocks. -/
theorem structuralReserved_iff_ranges {v : Nat} {c : Cell} (hv40 : v ≤ 40) (hx : c.1 < symbolWidth v) (hy : c.2 < symbolWidth v) :
    structuralReserved v c = true ↔
      ((c.1 ≤ 7 ∧ c.2 ≤ 7) ∨ (symbolWidth v ≤ c.1 + 8 ∧ c.2 ≤ 7) ∨ (c.1 ≤ 7 ∧ symbolWidth v ≤ c.2 + 8)) ∨
      ((c.1 ∈ alignBand (offTimingCoords v) ∧ c.2 ∈ alignBand (offTimingCoords v)) ∨
        ((4 ≤ c.1 ∧ c.1 ≤ 8) ∧ c.2 ∈ alignBand (innerCoords v)) ∨ (c.1 ∈ alignBand (innerCoords v) ∧ (4 ≤ c.2 ∧ c.2 ≤ 8))) ∨
      ((c.2 = 6 ∧ 8 ≤ c.1 ∧ c.1 + 9 ≤ symbolWidth v) ∨ (c.1 = 6 ∧ 8 ≤ c.2 ∧ c.2 + 9 ≤ symbolWidth v)) ∨
      ((c.2 = 8 ∧ (c.1 ≤ 8 ∨ symbolWidth v ≤ c.1 + 8)) ∨ (c.1 = 8 ∧ (c.2 ≤ 8 ∨ symbolWidth v ≤ c.2 + 8))) ∨
      ((c.1 ≤ 5 ∧ c.2 ∈ versionBand v) ∨ (c.2 ≤ 5 ∧ c.1 ∈ versionBand v)) := by
  have hw : 8 ≤ symbolWidth v := by simp only [symbolWidth]; omega
  have hversion : onVersion v c = true ↔ (c.1 ≤ 5 ∧ c.2 ∈ versionBand v) ∨ (c.2 ≤ 5 ∧ c.1 ∈ versionBand v) := by
    rw [onVersion_iff, mem_versionBand, mem_versionBand]; omega
  rw [structuralReserved_iff, exists_finderCentres_iff hw hx hy, exists_listedCentres_iff hv40, onTiming_iff, onFormat_iff, hversion]

/-- The reserved cells are closed under transposition. -/
theorem structuralReserved_transpose (v : Nat) (c : Cell) : structuralReserved v (transpose c) = structuralReserved v c := by
  rw [Bool.eq_iff_iff, structuralReserved_iff, structuralReserved_iff, onTiming_transpose, onFormat_transpose, onVersion_transpose,
    exists_cellDist_transpose transpose_mem_finderCentres (· ≤ 4), exists_cellDist_transpose transpose_mem_listedCentres (· ≤ 2)]

/-- Column 6, which the walk steps over, is reserved from end to end. -/
theorem structuralReserved_column_six {v y : Nat} (hv40 : v ≤ 40) (hy : y < symbolWidth v) : structuralReserved v (6, y) = true := by
  have hw : 17 ≤ symbolWidth v := Nat.le_add_right ..
  rw [structuralReserved_iff_ranges hv40 (by omega) hy]
  have hrow : y ≤ 7 ∨ (8 ≤ y ∧ y + 9 ≤ symbolWidth v) ∨ symbolWidth v ≤ y + 8 := by omega
  rcases hrow with hfinder | htiming | hfinder
  · exact .inl (.inl ⟨Nat.le_succ 6, hfinder⟩)
  · exact .inr (.inr (.inl (.inr ⟨rfl, htiming⟩)))
  · exact .inl (.inr (.inr ⟨Nat.le_succ 6, hfinder⟩))

/-! ### The free cells -/

/-- The reserved cells between the two left finders: the timing pattern, the alignment patterns on it, and the version block. -/
def stripReserved (v : Nat) : Finset Cell :=
  {6} ×ˢ Finset.Ico 9 (symbolWidth v - 8) ∪ ({4, 5, 7, 8} ×ˢ alignBand (innerCoords v) ∪ Finset.range 6 ×ˢ versionBand v)

/-- The free cells of the first nine columns, which lie between the two left finders. -/
def leftStrip (v : Nat) : Finset Cell := (Finset.range 9 ×ˢ Finset.Ico 9 (symbolWidth v - 8)) \ stripReserved v

/-- The free cells outside the first nine rows and columns, where all that is reserved is alignment patterns. -/
def mainSquare (v : Nat) : Finset Cell :=
  (Finset.Ico 9 (symbolWidth v) ×ˢ Finset.Ico 9 (symbolWidth v)) \ (alignBand (offTimingCoords v) ×ˢ alignBand (offTimingCoords v))

/-- The free cells: the left strip, its transpose at the top, and the main square. -/
def freeCells (v : Nat) : Finset Cell := leftStrip v ∪ ((leftStrip v).image transpose ∪ mainSquare v)

theorem mem_leftStrip {v : Nat} {c : Cell} : c ∈ leftStrip v ↔ (c.1 < 9 ∧ 9 ≤ c.2 ∧ c.2 + 8 < symbolWidth v) ∧
    c.1 ≠ 6 ∧ ¬ (4 ≤ c.1 ∧ c.2 ∈ alignBand (innerCoords v)) ∧ ¬ (c.1 ≤ 5 ∧ c.2 ∈ versionBand v) := by
  simp only [leftStrip, stripReserved, Finset.mem_sdiff, Finset.mem_union, Finset.mem_product, Finset.mem_range, Finset.mem_Ico,
    Finset.mem_insert, Finset.mem_singleton]
  grind

theorem mem_mainSquare {v : Nat} {c : Cell} : c ∈ mainSquare v ↔ ((9 ≤ c.1 ∧ c.1 < symbolWidth v) ∧ 9 ≤ c.2 ∧ c.2 < symbolWidth v) ∧
    ¬ (c.1 ∈ alignBand (offTimingCoords v) ∧ c.2 ∈ alignBand (offTimingCoords v)) := by
  simp only [mainSquare, Finset.mem_sdiff, Finset.mem_product, Finset.mem_Ico]

theorem mem_image_transpose {s : Finset Cell} {c : Cell} : c ∈ s.image transpose ↔ transpose c ∈ s :=
  Finset.mem_image.trans ⟨fun ⟨_, hd, h⟩ => h ▸ hd, fun h => ⟨transpose c, h, rfl⟩⟩

theorem mem_freeCells {v : Nat} {c : Cell} : c ∈ freeCells v ↔ c ∈ leftStrip v ∨ transpose c ∈ leftStrip v ∨ c ∈ mainSquare v := by
  rw [freeCells, Finset.mem_union, Finset.mem_union, mem_image_transpose]

theorem structuralReserved_iff_of_left {v : Nat} {c : Cell} (hv40 : v ≤ 40) (hx : c.1 < 9) (hy : c.2 < symbolWidth v) :
    structuralReserved v c = true ↔ c ∉ leftStrip v := by
  have hw : 17 ≤ symbolWidth v := Nat.le_add_right ..
  have hinner : c.1 ∉ alignBand (innerCoords v) := fun h => by have := innerBand_bounds hv40 h; omega
  have hoff : c.1 ∉ alignBand (offTimingCoords v) := fun h => by have := offTimingBand_bounds hv40 h; omega
  have hversion : c.1 ∉ versionBand v := fun h => by have := mem_versionBand.mp h; simp only [symbolWidth] at this; omega
  have hinnerRow : c.2 ∈ alignBand (innerCoords v) → 9 ≤ c.2 ∧ c.2 + 12 ≤ symbolWidth v := innerBand_bounds hv40
  rw [structuralReserved_iff_ranges hv40 (by omega) hy, mem_leftStrip]
  simp only [hinner, hoff, hversion, false_and, and_false, false_or, or_false]
  grind

theorem structuralReserved_iff_of_main {v : Nat} {c : Cell} (hv40 : v ≤ 40) (hx9 : 9 ≤ c.1) (hy9 : 9 ≤ c.2) (hx : c.1 < symbolWidth v)
    (hy : c.2 < symbolWidth v) : structuralReserved v c = true ↔ c ∉ mainSquare v := by
  rw [structuralReserved_iff_ranges hv40 hx hy, mem_mainSquare]
  grind

/-- The free cells are the cells of the symbol that are not reserved. -/
theorem mem_freeCells_iff {v : Nat} {c : Cell} (hv40 : v ≤ 40) :
    c ∈ freeCells v ↔ (c.1 < symbolWidth v ∧ c.2 < symbolWidth v) ∧ ¬ structuralReserved v c = true := by
  have hw : 17 ≤ symbolWidth v := Nat.le_add_right ..
  rw [mem_freeCells]
  constructor
  · rintro (h | h | h)
    · obtain ⟨⟨hx, -, hy⟩, -⟩ := mem_leftStrip.mp h
      exact ⟨by omega, fun hres => (structuralReserved_iff_of_left hv40 hx (by omega)).mp hres h⟩
    · obtain ⟨⟨hy : c.2 < 9, -, hx : c.1 + 8 < symbolWidth v⟩, -⟩ := mem_leftStrip.mp h
      rw [← structuralReserved_transpose]
      exact ⟨by omega, fun hres => (structuralReserved_iff_of_left (c := transpose c) hv40 hy (Nat.lt_of_add_right_lt hx)).mp hres h⟩
    · obtain ⟨⟨⟨hx9, hx⟩, hy9, hy⟩, -⟩ := mem_mainSquare.mp h
      exact ⟨⟨hx, hy⟩, fun hres => (structuralReserved_iff_of_main hv40 hx9 hy9 hx hy).mp hres h⟩
  · rintro ⟨⟨hx, hy⟩, hfree⟩
    rcases Nat.lt_or_ge c.1 9 with hx9 | hx9
    · exact .inl (Decidable.not_not.mp (mt (structuralReserved_iff_of_left hv40 hx9 hy).mpr hfree))
    rcases Nat.lt_or_ge c.2 9 with hy9 | hy9
    · rw [← structuralReserved_transpose] at hfree
      exact .inr (.inl (Decidable.not_not.mp (mt (structuralReserved_iff_of_left (c := transpose c) hv40 hy9 hx).mpr hfree)))
    · exact .inr (.inr (Decidable.not_not.mp (mt (structuralReserved_iff_of_main hv40 hx9 hy9 hx hy).mpr hfree)))

/-! ### Their number -/

theorem stripReserved_card {v : Nat} (hv40 : v ≤ 40) : (stripReserved v).card =
    (symbolWidth v - 17) + (4 * (5 * (innerCoords v).length) + 6 * (if 7 ≤ v then 3 else 0)) := by
  have hbands : Disjoint (alignBand (innerCoords v)) (versionBand v) := Finset.disjoint_left.mpr fun k hk hk' => by
    have := innerBand_bounds hv40 hk
    have := mem_versionBand.mp hk'
    omega
  have htiming : Disjoint (({6} : Finset Nat) ×ˢ Finset.Ico 9 (symbolWidth v - 8))
      ({4, 5, 7, 8} ×ˢ alignBand (innerCoords v) ∪ Finset.range 6 ×ˢ versionBand v) :=
    Finset.disjoint_union_right.mpr ⟨Finset.disjoint_product.mpr (.inl (by decide)), Finset.disjoint_product.mpr (.inl (by decide))⟩
  rw [stripReserved, Finset.card_union_of_disjoint htiming, Finset.card_union_of_disjoint (Finset.disjoint_product.mpr (.inr hbands)),
    Finset.card_product, Finset.card_product, Finset.card_product, innerBand_card hv40, versionBand_card, Nat.card_Ico,
    Finset.card_singleton, Nat.one_mul, Finset.card_range, Nat.sub_sub]
  rfl

theorem leftStrip_card {v : Nat} (hv40 : v ≤ 40) :
    (leftStrip v).card + (stripReserved v).card = 9 * (symbolWidth v - 17) := by
  have hinside : stripReserved v ⊆ Finset.range 9 ×ˢ Finset.Ico 9 (symbolWidth v - 8) := fun c hc => by
    have hinner : c.2 ∈ alignBand (innerCoords v) → 9 ≤ c.2 ∧ c.2 + 12 ≤ symbolWidth v := innerBand_bounds hv40
    simp only [stripReserved, Finset.mem_union, Finset.mem_product, Finset.mem_range, Finset.mem_Ico, Finset.mem_insert,
      Finset.mem_singleton, mem_versionBand, symbolWidth] at *
    grind
  rw [leftStrip, Finset.card_sdiff_add_card_eq_card hinside, Finset.card_product, Finset.card_range, Nat.card_Ico, Nat.sub_sub]

theorem mainSquare_card {v : Nat} (hv40 : v ≤ 40) :
    (mainSquare v).card + 5 * (offTimingCoords v).length * (5 * (offTimingCoords v).length) =
      (symbolWidth v - 9) * (symbolWidth v - 9) := by
  have hband : alignBand (offTimingCoords v) ⊆ Finset.Ico 9 (symbolWidth v) := fun k hk => by
    have := offTimingBand_bounds hv40 hk
    exact Finset.mem_Ico.mpr (by omega)
  rw [mainSquare, ← offTimingBand_card hv40, ← Finset.card_product,
    Finset.card_sdiff_add_card_eq_card (Finset.product_subset_product hband hband), Finset.card_product, Nat.card_Ico]

theorem freeCells_card_eq (v : Nat) : (freeCells v).card = 2 * (leftStrip v).card + (mainSquare v).card := by
  have htop : Disjoint ((leftStrip v).image transpose) (mainSquare v) := Finset.disjoint_left.mpr fun c hc hc' => by
    obtain ⟨⟨hy : c.2 < 9, -⟩, -⟩ := mem_leftStrip.mp (mem_image_transpose.mp hc)
    obtain ⟨⟨-, hy9, -⟩, -⟩ := mem_mainSquare.mp hc'
    omega
  have hleft : Disjoint (leftStrip v) ((leftStrip v).image transpose ∪ mainSquare v) := Finset.disjoint_left.mpr fun c hc hc' => by
    obtain ⟨⟨hx, -⟩, -⟩ := mem_leftStrip.mp hc
    rcases Finset.mem_union.mp hc' with h | h
    · obtain ⟨⟨-, hx9 : 9 ≤ c.1, -⟩, -⟩ := mem_leftStrip.mp (mem_image_transpose.mp h)
      omega
    · obtain ⟨⟨⟨hx9, -⟩, -⟩, -⟩ := mem_mainSquare.mp h
      omega
  have htranspose : Function.Injective transpose := Prod.swap_injective
  rw [freeCells, Finset.card_union_of_disjoint hleft, Finset.card_union_of_disjoint htop, Finset.card_image_of_injective _ htranspose]
  omega

/-- The forty rows of the table: the cells of the strips and the square are the stream, the remainder cells and what is reserved. -/
theorem stream_and_remainder_count : ∀ v ≤ 40, 1 ≤ v →
    8 * totalCodewords (lookupCfg 1 v) + remainderCells v +
      2 * ((symbolWidth v - 17) + (4 * (5 * (innerCoords v).length) + 6 * (if 7 ≤ v then 3 else 0))) +
      5 * (offTimingCoords v).length * (5 * (offTimingCoords v).length) =
    2 * (9 * (symbolWidth v - 17)) + (symbolWidth v - 9) * (symbolWidth v - 9) := by
  decide +kernel

theorem freeCells_card {v : Nat} (hv1 : 1 ≤ v) (hv40 : v ≤ 40) :
    (freeCells v).card = 8 * totalCodewords (lookupCfg 1 v) + remainderCells v := by
  have hcount := stream_and_remainder_count v hv40 hv1
  rw [← stripReserved_card hv40, ← leftStrip_card hv40, ← mainSquare_card hv40] at hcount
  rw [freeCells_card_eq]
  omega

/-! ### The path on the layout (R151, R153) -/

/-- The path visits every cell of the symbol that is not reserved: the walk covers every column but 6, and column 6 is reserved. -/
theorem mem_path_layout {v : Nat} {c : Cell} (hv1 : 1 ≤ v) (hv40 : v ≤ 40) : c ∈ path (layout v).excl (symbolWidth v) ↔
    (c.1 < symbolWidth v ∧ c.2 < symbolWidth v) ∧ isReserved (layout v).excl c = false := by
  refine ⟨fun hc => ⟨path_inside hc, (mem_path.mp hc).2⟩, fun ⟨⟨hx, hy⟩, hfree⟩ => mem_path.mpr ⟨?_, hfree⟩⟩
  have hoff : c.1 ≠ 6 := fun h6 => by
    have hreserved : structuralReserved v c = true := (Prod.ext h6 rfl : c = (6, c.2)) ▸ structuralReserved_column_six hv40 hy
    exact Bool.false_ne_true (hfree.symm.trans ((isReserved_layout hv1 hv40 hx hy).mpr hreserved))
  have hw : 17 ≤ symbolWidth v := Nat.le_add_right ..
  have hwalk : (symbolWidth v - 1) % 2 = 0 ↔ symbolWidth v - 1 = 0 ∨ 6 ≤ symbolWidth v - 1 := by simp only [symbolWidth]; omega
  obtain ⟨r, hr, hcolumn⟩ := (exists_pairColumns_iff (x := c.1) (Nat.sub_le _ 1) hwalk).mpr (by omega)
  exact ⟨r, hr, mem_pairCells.mpr ⟨hcolumn, hy⟩⟩

theorem path_layout_toFinset {v : Nat} (hv1 : 1 ≤ v) (hv40 : v ≤ 40) :
    (path (layout v).excl (symbolWidth v)).toFinset = freeCells v := by
  ext c
  rw [List.mem_toFinset, mem_path_layout hv1 hv40, mem_freeCells_iff hv40]
  refine and_congr_right fun ⟨hx, hy⟩ => ?_
  rw [← isReserved_layout hv1 hv40 hx hy, Bool.not_eq_true]

/-- Settles O53: the path visits each free cell once, so it is as long as the free cells are many, which is the same at every level. -/
theorem pathHoldsTheWholeStream : Obligations.PathHoldsTheWholeStream := by
  unfold Obligations.PathHoldsTheWholeStream
  intro lvl v hl1 hl4 hv1 hv40 w p
  have hnodup : p.Nodup := path_nodup _ _
  refine ⟨hnodup, fun x y => (mem_path_layout hv1 hv40).trans and_assoc, ?_⟩
  rw [← List.toFinset_card_of_nodup hnodup, path_layout_toFinset hv1 hv40, freeCells_card hv1 hv40,
    totalCodewords_eq_level_one lvl hl4 hl1 v hv40 hv1]

end Sys2Proof.Machine
end

section
/-! PROOFS. The mask predicates and the application of a mask (47_mask_finish.md R154, R156), the search (R164), and the format and version
words as codewords (R165, R167). -/

namespace Sys2Proof.Machine

/-! ### Masks (R154, R156) -/

theorem gridCells_nodup (nx ny : Nat) : (gridCells nx ny).Nodup := by
  refine List.nodup_flatMap.mpr ⟨fun y _ => List.nodup_range.map (Prod.mk_left_injective y), ?_⟩
  refine List.nodup_range.pairwise_of_forall_ne fun y _ y' _ hne => List.disjoint_left.mpr fun c hc hc' => ?_
  obtain ⟨x, -, rfl⟩ := List.mem_map.mp hc
  obtain ⟨x', -, heq⟩ := List.mem_map.mp hc'
  exact hne (Prod.ext_iff.mp heq).2.symm

/-- Inverting the cells of a list that pass a test, where the list, whose columns lie inside the symbol, holds no cell twice. -/
theorem cell_foldl_flip {w : Nat} {c : Cell} (hc : c.1 < w) (p : Cell → Bool) {cs : List Cell} (hcs : ∀ d ∈ cs, d.1 < w)
    (hnodup : cs.Nodup) (q : Bitmap) :
    Bitmap.cell (cs.foldl (fun q d => if p d then Bitmap.flip q (cellIndex w d) else q) q) w c =
      (Bitmap.cell q w c ^^ (decide (c ∈ cs) && p c)) := by
  induction cs generalizing q with
  | nil => simp
  | cons d cs ih =>
    obtain ⟨hd, hcs⟩ := List.forall_mem_cons.mp hcs
    obtain ⟨hnew, hnodup⟩ := List.nodup_cons.mp hnodup
    have hflip : Bitmap.cell (Bitmap.flip q (cellIndex w d)) w c = (Bitmap.cell q w c ^^ decide (c = d)) := by
      have hindex : cellIndex w d = cellIndex w c ↔ c = d := ⟨fun h => (cellIndex_inj hd hc h).symm, fun h => h ▸ rfl⟩
      simp [Bitmap.cell, hindex]
    rw [List.foldl_cons, ih hcs hnodup]
    by_cases hcd : c = d
    · subst hcd
      cases hp : p c <;> simp [hflip, hnew]
    · cases hp : p d <;> simp [hflip, hcd]

/-- A mask on one cell of the symbol (R156). -/
theorem cell_applyMask (excl p : Bitmap) (k : Nat) {w : Nat} {c : Cell} (hx : c.1 < w) (hy : c.2 < w) :
    Bitmap.cell (applyMask excl w p k) w c = (Bitmap.cell p w c ^^ (maskPred k c && !isReserved excl c)) := by
  refine (cell_foldl_flip hx (fun d => maskPred k d && !isReserved excl d) (fun d hd => (mem_gridCells.mp hd).1)
    (gridCells_nodup w w) p).trans ?_
  rw [decide_eq_true (mem_gridCells.mpr ⟨hx, hy⟩), Bool.true_and]

/-- Settles O54: no cell of the symbol comes twice in the pass over it, and two inversions cancel. -/
theorem maskInvertsExactlyItsFreeCells : Obligations.MaskInvertsExactlyItsFreeCells := by
  unfold Obligations.MaskInvertsExactlyItsFreeCells
  refine ⟨fun x y => ⟨rfl, rfl, rfl, rfl, rfl, rfl, rfl, rfl⟩, fun excl p w k x y hx hy => ⟨cell_applyMask excl p k hx hy, ?_⟩⟩
  rw [cell_applyMask excl _ k hx hy, cell_applyMask excl p k hx hy, Bool.xor_assoc, Bool.xor_self, Bool.xor_false]

/-! ### The search (R164) -/

/-- Settles O55, as the search over any number of scores does. -/
theorem searchKeepsTheEarliestMinimum : Obligations.SearchKeepsTheEarliestMinimum := by
  unfold Obligations.SearchKeepsTheEarliestMinimum
  intro scores hlength
  rw [← hlength]
  exact bestMask_spec (by omega)

/-! ### The format and version words (R165, R167) -/

/-- The 32 rows of FORMAT (R165). -/
theorem format_codeword : ∀ lvl ≤ 4, ∀ k < 8, 1 ≤ lvl →
    ((Rom.format (k + (lvl - 1) * 8)).toNat ^^^ 0x5412) / 2 ^ 10 = levelBits lvl * 8 + k ∧
    gf2Mod 0x537 10 5 ((Rom.format (k + (lvl - 1) * 8)).toNat ^^^ 0x5412) = 0 := by
  decide

/-- The 34 rows of VINFO (R167). -/
theorem vinfo_codeword : ∀ v ≤ 40, 7 ≤ v → (Rom.vinfo v).toNat / 2 ^ 12 = v ∧ gf2Mod 0x1F25 12 6 (Rom.vinfo v).toNat = 0 := by
  decide

/-- Settles O57: the words are a finite table, divided row by row. -/
theorem formatAndVersionWordsAreCodewords : Obligations.FormatAndVersionWordsAreCodewords := by
  unfold Obligations.FormatAndVersionWordsAreCodewords
  exact ⟨fun lvl k hl1 hl4 hk => format_codeword lvl hl4 k hk hl1, fun v hv7 hv40 => vinfo_codeword v hv40 hv7⟩

end Sys2Proof.Machine
end

section
/-! PROOFS. The cells of the format and version words (47_mask_finish.md R166, R167): each carries one bit, and all of them are reserved cells that
the layout leaves light. -/

namespace Sys2Proof.Machine

/-! ### The cells of the two words (R166, R167) -/

/-- The two cells of bit j of the version word (R167). -/
abbrev versionCopies (w j : Nat) : List Cell := [versionCell w j, transpose (versionCell w j)]

theorem mem_versionCells {w : Nat} {c : Cell} : c ∈ versionCells w ↔ ∃ j < 18, c ∈ versionCopies w j := by
  simp only [versionCells, List.mem_flatMap, List.mem_range]

theorem mem_formatCopies {w k : Nat} {c : Cell} : c ∈ formatCopies w k ↔
    ((k ≤ 5 ∧ c.1 = 8 ∧ c.2 = k) ∨ (k = 6 ∧ c.1 = 8 ∧ c.2 = 7) ∨ (k = 7 ∧ c.1 = 8 ∧ c.2 = 8) ∨ (k = 8 ∧ c.1 = 7 ∧ c.2 = 8) ∨
      (9 ≤ k ∧ c.1 = 14 - k ∧ c.2 = 8)) ∨
    ((k ≤ 7 ∧ c.1 = w - 1 - k ∧ c.2 = 8) ∨ (8 ≤ k ∧ c.1 = 8 ∧ c.2 = w - 15 + k)) := by
  obtain ⟨x, y⟩ := c
  simp only [formatCopies, List.mem_cons, List.not_mem_nil, or_false]
  refine or_congr ?_ ?_ <;> split_ifs <;> simp only [Prod.mk.injEq] <;> omega

theorem mem_versionCopies {w j : Nat} {c : Cell} : c ∈ versionCopies w j ↔
    (c.1 = j / 3 ∧ c.2 = w - 11 + j % 3) ∨ (c.1 = w - 11 + j % 3 ∧ c.2 = j / 3) := by
  obtain ⟨x, y⟩ := c
  simp [versionCell, transpose]

/-- A cell carries one bit of the format word at most. -/
theorem formatCopies_inj {w k k' : Nat} {c : Cell} (hw : 21 ≤ w) (hk : k < 15) (hk' : k' < 15) (hc : c ∈ formatCopies w k)
    (hc' : c ∈ formatCopies w k') : k = k' := by
  rw [mem_formatCopies] at hc hc'
  omega

/-- A cell carries one bit of the version word at most: from version 7 on the two blocks lie apart. -/
theorem versionCopies_inj {w j j' : Nat} {c : Cell} (hw : 45 ≤ w) (hj' : j' < 18) (hc : c ∈ versionCopies w j)
    (hc' : c ∈ versionCopies w j') : j = j' := by
  rw [mem_versionCopies] at hc hc'
  omega

/-- The format strips lie in row 8 and in column 8, which the version blocks do not touch. -/
theorem not_mem_versionCopies_of_mem_formatCopies {w k j : Nat} {c : Cell} (hw : 45 ≤ w) (hj : j < 18)
    (hc : c ∈ formatCopies w k) : c ∉ versionCopies w j := by
  rw [mem_formatCopies] at hc
  rw [mem_versionCopies]
  omega

theorem symbolWidth_bounds {v : Nat} (hv1 : 1 ≤ v) (hv40 : v ≤ 40) : 21 ≤ symbolWidth v ∧ symbolWidth v ≤ 177 := by
  unfold symbolWidth
  omega

theorem symbolWidth_of_seven_le {v : Nat} (hv7 : 7 ≤ v) : 45 ≤ symbolWidth v := by
  unfold symbolWidth
  omega

theorem formatCopies_inside {w k : Nat} {c : Cell} (hw : 21 ≤ w) (hk : k < 15) (hc : c ∈ formatCopies w k) : c.1 < w ∧ c.2 < w := by
  rw [mem_formatCopies] at hc
  omega

theorem versionCopies_inside {w j : Nat} {c : Cell} (hw : 21 ≤ w) (hj : j < 18) (hc : c ∈ versionCopies w j) : c.1 < w ∧ c.2 < w := by
  rw [mem_versionCopies] at hc
  omega

theorem darkModule_inside {w : Nat} (hw : 21 ≤ w) : (darkModule w).1 < w ∧ (darkModule w).2 < w := by
  simp only [darkModule]
  omega

/-! ### Both words lie on reserved cells that the layout leaves light (R127, R128) -/

/-- Where the structural patterns are dark: inside the finders, on an alignment pattern, on a timing pattern, or at the dark module. -/
theorem structuralDark_ranges {v : Nat} {c : Cell} (hv40 : v ≤ 40) (hx : c.1 < symbolWidth v) (hy : c.2 < symbolWidth v)
    (h : structuralDark v c = true) :
    ((c.1 ≤ 6 ∧ c.2 ≤ 6) ∨ (symbolWidth v ≤ c.1 + 7 ∧ c.2 ≤ 6) ∨ (c.1 ≤ 6 ∧ symbolWidth v ≤ c.2 + 7)) ∨
    ((9 ≤ c.1 ∧ 9 ≤ c.2) ∨ (9 ≤ c.2 ∧ c.2 + 12 ≤ symbolWidth v) ∨ (9 ≤ c.1 ∧ c.1 + 12 ≤ symbolWidth v)) ∨
    (c.1 = 6 ∨ c.2 = 6) ∨ (c.1 = 8 ∧ c.2 = symbolWidth v - 8) := by
  rcases structuralDark_iff.mp h with ⟨f, hf, hd⟩ | ⟨a, ha, hd⟩ | ⟨htiming, -⟩ | rfl
  · refine .inl ?_
    simp only [finderCentres, List.mem_cons, List.not_mem_nil, or_false] at hf
    rcases hf with rfl | rfl | rfl <;> simp only [cellDist, dist] at hd <;> omega
  · refine .inr (.inl ?_)
    have hnear : cellDist a c ≤ 2 := by omega
    rcases (exists_listedCentres_iff hv40).mp ⟨a, ha, hnear⟩ with ⟨hx, hy⟩ | ⟨-, hy⟩ | ⟨hx, -⟩
    · exact .inl ⟨(offTimingBand_bounds hv40 hx).1, (offTimingBand_bounds hv40 hy).1⟩
    · exact .inr (.inl (innerBand_bounds hv40 hy))
    · exact .inr (.inr (innerBand_bounds hv40 hx))
  · rw [onTiming_iff] at htiming
    omega
  · exact .inr (.inr (.inr ⟨rfl, rfl⟩))

theorem structuralDark_of_mem_formatCopies {v k : Nat} {c : Cell} (hv1 : 1 ≤ v) (hv40 : v ≤ 40) (hk : k < 15)
    (hc : c ∈ formatCopies (symbolWidth v) k) : structuralDark v c = false := by
  refine Bool.eq_false_iff.mpr fun hdark => ?_
  obtain ⟨hw, -⟩ := symbolWidth_bounds hv1 hv40
  obtain ⟨hx, hy⟩ := formatCopies_inside hw hk hc
  have hranges := structuralDark_ranges hv40 hx hy hdark
  rw [mem_formatCopies] at hc
  omega

theorem structuralDark_of_mem_versionCopies {v j : Nat} {c : Cell} (hv7 : 7 ≤ v) (hv40 : v ≤ 40) (hj : j < 18)
    (hc : c ∈ versionCopies (symbolWidth v) j) : structuralDark v c = false := by
  refine Bool.eq_false_iff.mpr fun hdark => ?_
  have hw := symbolWidth_of_seven_le hv7
  obtain ⟨hx, hy⟩ := versionCopies_inside (Nat.le_trans (by decide) hw) hj hc
  have hranges := structuralDark_ranges hv40 hx hy hdark
  rw [mem_versionCopies] at hc
  omega

theorem isReserved_of_mem_formatCopies {v k : Nat} {c : Cell} (hv1 : 1 ≤ v) (hv40 : v ≤ 40) (hk : k < 15)
    (hc : c ∈ formatCopies (symbolWidth v) k) : isReserved (layout v).excl c = true := by
  obtain ⟨hw, -⟩ := symbolWidth_bounds hv1 hv40
  obtain ⟨hx, hy⟩ := formatCopies_inside hw hk hc
  have hon : onFormat (symbolWidth v) c = true := by
    rw [mem_formatCopies] at hc
    rw [onFormat_iff]
    omega
  exact (isReserved_layout hv1 hv40 hx hy).mpr (structuralReserved_iff.mpr (.inr (.inr (.inr (.inl hon)))))

theorem isReserved_of_mem_versionCopies {v j : Nat} {c : Cell} (hv7 : 7 ≤ v) (hv40 : v ≤ 40) (hj : j < 18)
    (hc : c ∈ versionCopies (symbolWidth v) j) : isReserved (layout v).excl c = true := by
  have hv1 : 1 ≤ v := Nat.le_trans (by decide) hv7
  obtain ⟨hw, -⟩ := symbolWidth_bounds hv1 hv40
  obtain ⟨hx, hy⟩ := versionCopies_inside hw hj hc
  have hon : onVersion v c = true := onVersion_iff_mem.mpr ⟨hv7, mem_versionCells.mpr ⟨j, hj, hc⟩⟩
  exact (isReserved_layout hv1 hv40 hx hy).mpr (structuralReserved_iff.mpr (.inr (.inr (.inr (.inr hon)))))

end Sys2Proof.Machine
end

section
/-! PROOFS. The finished matrix cell by cell (47_mask_finish.md R166 to R168): the masked stream, the two words, and the patterns of the layout. -/

namespace Sys2Proof.Machine

/-! ### Writing the words (R166, R167) -/

/-- A 1 of the format word f is written to cell c (R166). -/
def FormatDark (w : Nat) (f : BitVec 15) (c : Cell) : Prop := ∃ k < 15, f.getLsbD k = true ∧ c ∈ formatCopies w k

/-- A 1 of the version word of version v is written to cell c (R167). -/
def VersionDark (v : Nat) (c : Cell) : Prop :=
  7 ≤ v ∧ ∃ j < 18, (Rom.vinfo v).getLsbD j = true ∧ c ∈ versionCopies (symbolWidth v) j

theorem formatDark_iff_of_mem {w k : Nat} {f : BitVec 15} {c : Cell} (hw : 21 ≤ w) (hk : k < 15) (hc : c ∈ formatCopies w k) :
    FormatDark w f c ↔ f.getLsbD k = true := by
  refine ⟨fun ⟨k', hk', hbit, hc'⟩ => ?_, fun hbit => ⟨k, hk, hbit, hc⟩⟩
  rwa [formatCopies_inj hw hk hk' hc hc']

theorem versionDark_iff_of_mem {v j : Nat} {c : Cell} (hv7 : 7 ≤ v) (hj : j < 18) (hc : c ∈ versionCopies (symbolWidth v) j) :
    VersionDark v c ↔ (Rom.vinfo v).getLsbD j = true := by
  refine ⟨fun ⟨_, j', hj', hbit, hc'⟩ => ?_, fun hbit => ⟨hv7, j, hj, hbit, hc⟩⟩
  rwa [versionCopies_inj (symbolWidth_of_seven_le hv7) hj' hc hc']

theorem cell_foldl_setDark {w : Nat} {c : Cell} {cs : List Cell} (hcs : ∀ d ∈ cs, d.1 < w) (hc : c.1 < w) (q : Bitmap) :
    Bitmap.cell (cs.foldl (fun m d => Bitmap.setDark m w d) q) w c = true ↔ Bitmap.cell q w c = true ∨ c ∈ cs :=
  cell_darkAll { mod := q, excl := 0 } hcs hc

theorem cell_writeFormat {w : Nat} {c : Cell} (hw : 21 ≤ w) (hx : c.1 < w) (q : Bitmap) (f : BitVec 15) :
    Bitmap.cell (writeFormat q w f) w c = true ↔ Bitmap.cell q w c = true ∨ FormatDark w f c := by
  refine (cell_foldl_setDark (fun d hd => ?_) hx q).trans (or_congr_right ?_)
  · obtain ⟨k, hk, hd⟩ := List.mem_flatMap.mp hd
    exact (formatCopies_inside hw (List.mem_range.mp (List.mem_of_mem_filter hk)) hd).1
  · simp [FormatDark, and_assoc]

theorem cell_writeVersion {v : Nat} {c : Cell} (hv7 : 7 ≤ v) (hx : c.1 < symbolWidth v) (q : Bitmap) :
    Bitmap.cell (writeVersion q v) (symbolWidth v) c = true ↔ Bitmap.cell q (symbolWidth v) c = true ∨ VersionDark v c := by
  have hw := symbolWidth_of_seven_le hv7
  refine (cell_foldl_setDark (fun d hd => ?_) hx q).trans (or_congr_right ?_)
  · obtain ⟨j, hj, hd⟩ := List.mem_flatMap.mp hd
    exact (versionCopies_inside (Nat.le_trans (by decide) hw) (List.mem_range.mp (List.mem_of_mem_filter hj)) hd).1
  · simp only [VersionDark, hv7, true_and, List.mem_flatMap, List.mem_filter, List.mem_range, and_assoc]

/-! ### The finished matrix, cell by cell (R168) -/

/-- A mask leaves the reserved cells alone (R156). -/
theorem cell_applyMask_of_reserved {excl : Bitmap} {w : Nat} {c : Cell} (hx : c.1 < w) (hy : c.2 < w) (p : Bitmap) (k : Nat)
    (h : isReserved excl c = true) : Bitmap.cell (applyMask excl w p k) w c = Bitmap.cell p w c := by
  simp [cell_applyMask excl p k hx hy, h]

/-- The version blocks are reserved, so they may as well be written after the mask (R155, R167). -/
theorem cell_applyMask_writeVersion {v : Nat} {c : Cell} (hv7 : 7 ≤ v) (hv40 : v ≤ 40) (hx : c.1 < symbolWidth v)
    (hy : c.2 < symbolWidth v) (q : Bitmap) (k : Nat) :
    Bitmap.cell (applyMask (layout v).excl (symbolWidth v) (writeVersion q v) k) (symbolWidth v) c = true ↔
      Bitmap.cell (applyMask (layout v).excl (symbolWidth v) q k) (symbolWidth v) c = true ∨ VersionDark v c := by
  by_cases hdark : VersionDark v c
  · obtain ⟨-, j, hj, -, hc⟩ := hdark
    have hreserved := isReserved_of_mem_versionCopies hv7 hv40 hj hc
    rw [cell_applyMask_of_reserved hx hy _ k hreserved, cell_applyMask_of_reserved hx hy _ k hreserved, cell_writeVersion hv7 hx]
  · have hkept : Bitmap.cell (writeVersion q v) (symbolWidth v) c = Bitmap.cell q (symbolWidth v) c := by
      rw [Bool.eq_iff_iff, cell_writeVersion hv7 hx, or_iff_left hdark]
    rw [cell_applyMask _ _ k hx hy, cell_applyMask _ _ k hx hy, hkept, or_iff_left hdark]

/-- The finisher: the masked matrix with the 1s of the two words, wherever VINFO_BEFORE_SCORE puts the version word (R168). -/
theorem cell_finishWith {v : Nat} {c : Cell} (hv1 : 1 ≤ v) (hv40 : v ≤ 40) (hx : c.1 < symbolWidth v) (hy : c.2 < symbolWidth v)
    (p : Config.Params) (mod : Bitmap) (lvl k : Nat) (scores : List Nat) :
    Bitmap.cell (finishWith p (preMask p mod v) (layout v).excl v lvl k scores).mod (symbolWidth v) c = true ↔
      (Bitmap.cell (applyMask (layout v).excl (symbolWidth v) mod k) (symbolWidth v) c = true ∨
        FormatDark (symbolWidth v) (Rom.format (k + (lvl - 1) * 8)) c) ∨ VersionDark v c := by
  obtain ⟨hw, -⟩ := symbolWidth_bounds hv1 hv40
  unfold finishWith preMask
  by_cases hv7 : 7 ≤ v
  · cases hp : p.vinfoBeforeScore with
    | true =>
      simp only [ge_iff_le, hv7, and_self, if_true]
      rw [cell_writeFormat hw hx, cell_applyMask_writeVersion hv7 hv40 hx hy, or_right_comm]
    | false =>
      simp only [ge_iff_le, hv7, Bool.false_eq_true, false_and, if_false, if_true]
      rw [cell_writeVersion hv7 hx, cell_writeFormat hw hx]
  · have hnone : ¬ VersionDark v c := fun h => hv7 h.1
    simp only [ge_iff_le, hv7, and_false, if_false]
    rw [cell_writeFormat hw hx, or_iff_left hnone]

section
/-! The symbol that S7 makes of a packed stream on the layout of a version (R168): each cell by its kind. -/

/-- What S7 makes of the stream `ilv`, packed on the layout of version v. -/
abbrev finishedStream (p : Config.Params) (ilv : List Byte) (v lvl : Nat) (override : Option Nat) : Finished :=
  maskFinish p (pack (layout v) ilv (symbolWidth v)) (layout v).excl v lvl override

variable {v : Nat} (hv1 : 1 ≤ v) (hv40 : v ≤ 40) (p : Config.Params) (ilv : List Byte) (lvl : Nat) (override : Option Nat)
include hv1 hv40

/-- With an override or by a search: the cell in terms of the mask and the format word reported. -/
theorem cell_finishedStream {c : Cell} (hx : c.1 < symbolWidth v) (hy : c.2 < symbolWidth v) :
    Bitmap.cell (finishedStream p ilv v lvl override).mod (symbolWidth v) c = true ↔
      (Bitmap.cell (applyMask (layout v).excl (symbolWidth v) (pack (layout v) ilv (symbolWidth v))
          (finishedStream p ilv v lvl override).mask) (symbolWidth v) c = true ∨
        FormatDark (symbolWidth v) (finishedStream p ilv v lvl override).fmt c) ∨ VersionDark v c := by
  cases override <;> simp only [finishedStream, maskFinish, finishWith_mask, finishWith_fmt] <;> exact cell_finishWith hv1 hv40 hx hy ..

/-- A reserved cell is dark as the layout drew it, or by a 1 of one of the two words. -/
theorem cell_finishedStream_of_reserved {c : Cell} (hx : c.1 < symbolWidth v) (hy : c.2 < symbolWidth v)
    (h : isReserved (layout v).excl c = true) :
    Bitmap.cell (finishedStream p ilv v lvl override).mod (symbolWidth v) c = true ↔
      (structuralDark v c = true ∨ FormatDark (symbolWidth v) (finishedStream p ilv v lvl override).fmt c) ∨ VersionDark v c := by
  have hpacked := (packerFollowsThePath v ilv hv1).2 c.1 c.2 hx hy h
  rw [cell_finishedStream hv1 hv40 p ilv lvl override hx hy, cell_applyMask_of_reserved hx hy _ _ h, hpacked, cell_layout hv1 hv40 hx]

theorem cell_finishedStream_format {k : Nat} (hk : k < 15) {c : Cell} (hc : c ∈ formatCopies (symbolWidth v) k) :
    Bitmap.cell (finishedStream p ilv v lvl override).mod (symbolWidth v) c =
      (finishedStream p ilv v lvl override).fmt.getLsbD k := by
  obtain ⟨hw, -⟩ := symbolWidth_bounds hv1 hv40
  obtain ⟨hx, hy⟩ := formatCopies_inside hw hk hc
  have hlight := structuralDark_of_mem_formatCopies hv1 hv40 hk hc
  have hnone : ¬ VersionDark v c := fun ⟨hv7, j, hj, _, hc'⟩ =>
    not_mem_versionCopies_of_mem_formatCopies (symbolWidth_of_seven_le hv7) hj hc hc'
  rw [Bool.eq_iff_iff, cell_finishedStream_of_reserved hv1 hv40 p ilv lvl override hx hy (isReserved_of_mem_formatCopies hv1 hv40 hk hc),
    or_iff_left hnone, or_iff_right (by simp [hlight]), formatDark_iff_of_mem hw hk hc]

theorem cell_finishedStream_version (hv7 : 7 ≤ v) {j : Nat} (hj : j < 18) {c : Cell} (hc : c ∈ versionCopies (symbolWidth v) j) :
    Bitmap.cell (finishedStream p ilv v lvl override).mod (symbolWidth v) c = (Rom.vinfo v).getLsbD j := by
  obtain ⟨hw, -⟩ := symbolWidth_bounds hv1 hv40
  obtain ⟨hx, hy⟩ := versionCopies_inside hw hj hc
  have hlight := structuralDark_of_mem_versionCopies hv7 hv40 hj hc
  have hnone (f : BitVec 15) : ¬ FormatDark (symbolWidth v) f c := fun ⟨k, _, _, hc'⟩ =>
    not_mem_versionCopies_of_mem_formatCopies (symbolWidth_of_seven_le hv7) hj hc' hc
  rw [Bool.eq_iff_iff, cell_finishedStream_of_reserved hv1 hv40 p ilv lvl override hx hy (isReserved_of_mem_versionCopies hv7 hv40 hj hc),
    or_iff_left (hnone _), or_iff_right (by simp [hlight]), versionDark_iff_of_mem hv7 hj hc]

/-- Every other reserved cell is as the layout drew it (R171). -/
theorem cell_finishedStream_pattern {c : Cell} (hx : c.1 < symbolWidth v) (hy : c.2 < symbolWidth v)
    (h : isReserved (layout v).excl c = true) (hformat : ∀ k, k < 15 → c ∉ formatCopies (symbolWidth v) k)
    (hversion : 7 ≤ v → c ∉ versionCells (symbolWidth v)) :
    Bitmap.cell (finishedStream p ilv v lvl override).mod (symbolWidth v) c = Bitmap.cell (layout v).mod (symbolWidth v) c := by
  have hnoFormat (f : BitVec 15) : ¬ FormatDark (symbolWidth v) f c := fun ⟨k, hk, _, hc⟩ => hformat k hk hc
  have hnoVersion : ¬ VersionDark v c := fun ⟨hv7, j, hj, _, hc⟩ => hversion hv7 (mem_versionCells.mpr ⟨j, hj, hc⟩)
  rw [Bool.eq_iff_iff, cell_finishedStream_of_reserved hv1 hv40 p ilv lvl override hx hy h, or_iff_left hnoVersion,
    or_iff_left (hnoFormat _), cell_layout hv1 hv40 hx]

/-- A free cell holds its packed module under the mask (R156). -/
theorem cell_finishedStream_free {c : Cell} (hx : c.1 < symbolWidth v) (hy : c.2 < symbolWidth v)
    (h : isReserved (layout v).excl c = false) :
    Bitmap.cell (finishedStream p ilv v lvl override).mod (symbolWidth v) c =
      (Bitmap.cell (pack (layout v) ilv (symbolWidth v)) (symbolWidth v) c ^^
        maskPred (finishedStream p ilv v lvl override).mask c) := by
  have hnoFormat (f : BitVec 15) : ¬ FormatDark (symbolWidth v) f c := fun ⟨k, hk, _, hc⟩ =>
    Bool.false_ne_true (h.symm.trans (isReserved_of_mem_formatCopies hv1 hv40 hk hc))
  have hnoVersion : ¬ VersionDark v c := fun ⟨hv7, j, hj, _, hc⟩ =>
    Bool.false_ne_true (h.symm.trans (isReserved_of_mem_versionCopies hv7 hv40 hj hc))
  rw [Bool.eq_iff_iff, cell_finishedStream hv1 hv40 p ilv lvl override hx hy, or_iff_left hnoVersion, or_iff_left (hnoFormat _),
    cell_applyMask _ _ _ hx hy, h, Bool.not_false, Bool.and_true]

/-- The dark module is dark (R129, R171). -/
theorem cell_finishedStream_darkModule :
    Bitmap.cell (finishedStream p ilv v lvl override).mod (symbolWidth v) (darkModule (symbolWidth v)) = true := by
  obtain ⟨hw, -⟩ := symbolWidth_bounds hv1 hv40
  obtain ⟨hx, hy⟩ := darkModule_inside hw
  have hdark : structuralDark v (darkModule (symbolWidth v)) = true := structuralDark_iff.mpr (.inr (.inr (.inr rfl)))
  have hreserved := layoutReservesEveryDarkCell v _ _ hx hy ((cell_layout hv1 hv40 hx).mpr hdark)
  exact (cell_finishedStream_of_reserved hv1 hv40 p ilv lvl override hx hy hreserved).mpr (.inl (.inl hdark))

end

end Sys2Proof.Machine
end

section
/-! PROOFS. MATRIX after GENERATE (20_memory.md R068, 47_mask_finish.md R170, R171). -/

namespace Sys2Proof.Machine

/-! ### The modules of MATRIX (R068, R170) -/

/-- The bits of a sum of different powers of two. -/
theorem testBit_sum_two_pow (p : Nat → Bool) (n i : Nat) :
    (((List.range n).filter p).map (2 ^ ·)).sum.testBit i = (decide (i < n) && p i) := by
  induction n generalizing i with
  | zero => simp
  | succ n ih =>
    have hlt : (((List.range n).filter p).map (2 ^ ·)).sum < 2 ^ n := Nat.lt_pow_two_of_testBit _ fun i hi => by
      rw [ih, decide_eq_false (Nat.not_lt.mpr hi), Bool.false_and]
    have hlast : (([n].filter p).map (2 ^ ·)).sum = 2 ^ n * (p n).toNat := by cases hp : p n <;> simp [hp]
    rw [List.range_succ, List.filter_append, List.map_append, List.sum_append, hlast, Nat.add_comm,
      Nat.testBit_two_pow_mul_add _ hlt, ih]
    split
    next hi => simp [hi, Nat.lt_succ_of_lt hi]
    next hi =>
      rcases Nat.eq_or_lt_of_le (Nat.le_of_not_lt hi) with rfl | hgt
      · cases p n <;> simp
      · have hbit : (p n).toNat.testBit (i - n) = false :=
          Nat.testBit_lt_two_pow (Nat.lt_of_le_of_lt (p n).toNat_le (Nat.one_lt_two_pow (by omega)))
        rw [hbit, decide_eq_false (by omega), Bool.false_and]

theorem matrixByte_getLsbD (q : Bitmap) (w b : Nat) {t : Nat} (ht : t < 8) :
    (matrixByte q w b).getLsbD t = (decide (8 * b + t < w * w) && Bitmap.get q (8 * b + t)) := by
  rw [matrixByte, BitVec.getLsbD_ofNat, testBit_sum_two_pow]
  simp [ht]

/-- Module i of MATRIX after GENERATE (R170). -/
theorem generated_matrixModule (s : State) {i : Nat} (hi : i < 8 * 3917) :
    s.generated.complete.matrixModule? i =
      some (decide (i < symbolWidth s.selection.v * symbolWidth s.selection.v) && Bitmap.get s.finished.mod i) := by
  have hb : i / 8 < Config.matrixBytes := Nat.div_lt_of_lt_mul hi
  have hread : Memory.get? s.generated.complete.mem (Config.matrixBase + i / 8) =
      some (matrixByte s.finished.mod (symbolWidth s.selection.v) (i / 8)) := by
    rw [State.complete_mem, State.writeSymbol_mem, Memory.get?_write_inside (Nat.le_add_right ..) (by rw [packMatrix_length]; omega),
      Nat.add_sub_cancel_left, packMatrix_getElem? _ _ hb]
  rw [State.matrixModule?, hread, Option.map_some, matrixByte_getLsbD _ _ _ (Nat.mod_lt _ (by decide)), Nat.div_add_mod]

/-- The module of a cell of the symbol. -/
theorem generated_matrixModule_cell (s : State) {x y : Nat} (hx : x < symbolWidth s.selection.v) (hy : y < symbolWidth s.selection.v) :
    s.generated.complete.matrixModule? (x + y * symbolWidth s.selection.v) =
      some (Bitmap.cell s.finished.mod (symbolWidth s.selection.v) (x, y)) := by
  obtain ⟨hv1, hv40, -⟩ := selection_spec s
  obtain ⟨-, hw⟩ := symbolWidth_bounds hv1 hv40
  have hrows := Nat.mul_le_mul_right (symbolWidth s.selection.v) hy
  rw [Nat.succ_mul] at hrows
  have harea : symbolWidth s.selection.v * symbolWidth s.selection.v ≤ 177 * 177 := Nat.mul_le_mul hw hw
  rw [generated_matrixModule s (by omega), decide_eq_true (by omega), Bool.true_and]
  rfl

/-- VERSION and EFFLEN hold their numbers unreduced after GENERATE (10_state.md R040). -/
theorem generated_version {s : State} (hl : levelLegal s.lvl = true) : s.generated.res.version.toNat = s.selection.v := by
  obtain ⟨-, hv40, -⟩ := selection_spec s
  exact (s.res.withSymbol_reports hv40 (selection_cfg_fits hl)).version

theorem generated_effLen (s : State) : s.generated.res.effLen.toNat = s.symbolLen :=
  Nat.mod_eq_of_lt (Nat.lt_of_le_of_lt (Nat.min_le_left _ _) s.len.isLt)

/-- The transmission-order stream of GENERATE (45_interleave.md R148). -/
abbrev State.stream (s : State) : List Byte :=
  let cw := encodeCodewords (s.inbufBytes s.symbolLen) s.selection.v (dataCodewords s.selection.cfg)
  interleave cw (rsBlocks cw s.selection.cfg) s.selection.cfg

theorem finished_eq_finishedStream (s : State) :
    s.finished = finishedStream s.params s.stream s.selection.v s.lvl s.maskOverride := rfl

/-- Both copies of the format word stand in MATRIX (R166). -/
theorem generated_matrixModule_format (s : State) {k x y : Nat} (hk : k < 15)
    (hc : (x, y) ∈ formatCopies (symbolWidth s.selection.v) k) :
    s.generated.complete.matrixModule? (x + y * symbolWidth s.selection.v) = some (s.finished.fmt.getLsbD k) := by
  obtain ⟨hv1, hv40, -⟩ := selection_spec s
  obtain ⟨hx, hy⟩ := formatCopies_inside (symbolWidth_bounds hv1 hv40).1 hk hc
  rw [generated_matrixModule_cell s hx hy, finished_eq_finishedStream, cell_finishedStream_format hv1 hv40 _ _ _ _ hk hc]

/-- From version 7 on both version blocks stand in MATRIX (R167). -/
theorem generated_matrixModule_version (s : State) (hv7 : 7 ≤ s.selection.v) {j x y : Nat} (hj : j < 18)
    (hc : (x, y) ∈ versionCopies (symbolWidth s.selection.v) j) :
    s.generated.complete.matrixModule? (x + y * symbolWidth s.selection.v) = some ((Rom.vinfo s.selection.v).getLsbD j) := by
  obtain ⟨hv1, hv40, -⟩ := selection_spec s
  obtain ⟨hx, hy⟩ := versionCopies_inside (symbolWidth_bounds hv1 hv40).1 hj hc
  rw [generated_matrixModule_cell s hx hy, finished_eq_finishedStream, cell_finishedStream_version hv1 hv40 _ _ _ _ hv7 hj hc]

/-- The other reserved cells stand in MATRIX as the layout drew them (R171). -/
theorem generated_matrixModule_pattern (s : State) {x y : Nat} (hx : x < symbolWidth s.selection.v)
    (hy : y < symbolWidth s.selection.v) (h : isReserved (layout s.selection.v).excl (x, y) = true)
    (hformat : ∀ k, k < 15 → (x, y) ∉ formatCopies (symbolWidth s.selection.v) k)
    (hversion : 7 ≤ s.selection.v → (x, y) ∉ versionCells (symbolWidth s.selection.v)) :
    s.generated.complete.matrixModule? (x + y * symbolWidth s.selection.v) =
      some (Bitmap.cell (layout s.selection.v).mod (symbolWidth s.selection.v) (x, y)) := by
  obtain ⟨hv1, hv40, -⟩ := selection_spec s
  rw [generated_matrixModule_cell s hx hy, finished_eq_finishedStream,
    cell_finishedStream_pattern hv1 hv40 _ _ _ _ hx hy h hformat hversion]

/-- The free cells hold the packed stream under the mask kept (R156). -/
theorem generated_matrixModule_free (s : State) {x y : Nat} (hx : x < symbolWidth s.selection.v)
    (hy : y < symbolWidth s.selection.v) (h : isReserved (layout s.selection.v).excl (x, y) = false) :
    s.generated.complete.matrixModule? (x + y * symbolWidth s.selection.v) =
      some (Bitmap.cell s.packedMatrix (symbolWidth s.selection.v) (x, y) ^^ maskPred s.finished.mask (x, y)) := by
  obtain ⟨hv1, hv40, -⟩ := selection_spec s
  rw [generated_matrixModule_cell s hx hy, finished_eq_finishedStream, cell_finishedStream_free hv1 hv40 _ _ _ _ hx hy h]

/-- The dark module is dark (R129). -/
theorem generated_matrixModule_darkModule (s : State) :
    s.generated.complete.matrixModule? (8 + (symbolWidth s.selection.v - 8) * symbolWidth s.selection.v) = some true := by
  obtain ⟨hv1, hv40, -⟩ := selection_spec s
  obtain ⟨hx, hy⟩ := darkModule_inside (symbolWidth_bounds hv1 hv40).1
  exact (generated_matrixModule_cell s hx hy).trans (congrArg some (cell_finishedStream_darkModule hv1 hv40 s.params s.stream ..))

/-- Settles O58: MATRIX holds the finished matrix, whose cells are those of the two words, of the patterns, and the free ones. -/
theorem matrixHoldsTheSymbol : Obligations.MatrixHoldsTheSymbol := by
  unfold Obligations.MatrixHoldsTheSymbol
  rintro s t v w hexec hl hmovr hfit rfl rfl
  have ho : s.overrideIllegal = false := Bool.eq_false_iff.mpr fun h => by
    obtain ⟨hen, hgt⟩ := overrideIllegal_iff.mp h
    exact absurd (hmovr hen) (Nat.not_le.mpr hgt)
  cases (exec_of_rule_ok (i := .generate) (runGenerate_ok hl ho hfit)).symm.trans hexec
  obtain ⟨-, -, hcfg⟩ := selection_spec s
  have hlvl : s.ctrl.level.toNat = s.lvl := rfl
  have hfmt : s.generated.res.fmtWord = s.finished.fmt := rfl
  simp only [State.complete_res, generated_version hl, generated_effLen, generated_maskSel ho, hlvl, ← hcfg, hfmt]
  refine ⟨fun k hk => ?copy1Top, ?bit6, ?bit7, ?bit8, fun k hk9 hk14 => ?copy1Left, fun k hk => ?copy2Right, fun k hk8 hk14 => ?copy2Bottom,
    fun hv7 j hj => ⟨?bottomLeft, ?topRight⟩, fun x y hx hy => generated_matrixModule_pattern s hx hy,
    fun x y hx hy => generated_matrixModule_free s hx hy, generated_matrixModule_darkModule s, fun i hi hi' => ?tail⟩
  case copy1Top => exact generated_matrixModule_format s (by omega) (mem_formatCopies.mpr (.inl (.inl ⟨hk, rfl, rfl⟩)))
  case bit6 => exact generated_matrixModule_format s (by decide) (mem_formatCopies.mpr (.inl (.inr (.inl ⟨rfl, rfl, rfl⟩))))
  case bit7 => exact generated_matrixModule_format s (by decide) (mem_formatCopies.mpr (.inl (.inr (.inr (.inl ⟨rfl, rfl, rfl⟩)))))
  case bit8 => exact generated_matrixModule_format s (by decide) (mem_formatCopies.mpr (.inl (.inr (.inr (.inr (.inl ⟨rfl, rfl, rfl⟩))))))
  case copy1Left =>
    exact generated_matrixModule_format s (by omega) (mem_formatCopies.mpr (.inl (.inr (.inr (.inr (.inr ⟨hk9, rfl, rfl⟩))))))
  case copy2Right => exact generated_matrixModule_format s (by omega) (mem_formatCopies.mpr (.inr (.inl ⟨hk, rfl, rfl⟩)))
  case copy2Bottom => exact generated_matrixModule_format s (by omega) (mem_formatCopies.mpr (.inr (.inr ⟨hk8, rfl, rfl⟩)))
  case bottomLeft => exact generated_matrixModule_version s hv7 hj (mem_versionCopies.mpr (.inl ⟨rfl, rfl⟩))
  case topRight => exact generated_matrixModule_version s hv7 hj (mem_versionCopies.mpr (.inr ⟨rfl, rfl⟩))
  case tail => rw [generated_matrixModule s hi', decide_eq_false (Nat.not_lt.mpr hi), Bool.false_and]

end Sys2Proof.Machine
end

section
/-! PROOFS. A command that waits for its ENGINE step (70_reset_and_hazards.md R205, R210, R213): what host writes do while BUSY = 1, and
what a run of host steps leaves of the machine. -/

namespace Sys2Proof.Machine

/-! ### Illegal accesses -/

/-- An illegal MemWrite is a bus error (20_memory.md R071). -/
theorem memWrite_of_illegal (s : State) {a : Addr} {n : Width} (v : Word) (hl : accessLegal a n = false) : s.memWrite a n v = none :=
  if_neg (by simp [hl])

/-- So is an illegal MemRead. -/
theorem memRead_of_illegal (s : State) {a : Addr} {n : Width} (hl : accessLegal a n = false) : s.memRead a n = none :=
  if_neg (by simp [hl])

/-! ### Host writes while BUSY = 1 -/

theorem busy_of_pend_ne_none {s : State} (hp : s.pend ≠ none) : s.busy = true := Option.isSome_iff_ne_none.mpr hp

/-- Whatever a host write does while BUSY = 1, it changes STATUS alone (R205). -/
theorem memWrite_of_busy {s t : State} {a : Addr} {n : Width} {v : Word} (hp : s.pend ≠ none) (h : s.memWrite a n v = some t) :
    ∃ f, t = { s with status := f } := by
  obtain ⟨-, rfl | ⟨-, rfl⟩ | ⟨-, rfl⟩ | ⟨hidle, -⟩⟩ := memWrite_some h
  · exact ⟨_, rfl⟩
  · exact ⟨_, rfl⟩
  · exact ⟨_, rfl⟩
  · exact absurd (busy_of_pend_ne_none hp) (by simp [hidle])

/-- A write to an operand register, to CMD or to INBUF is dropped while BUSY = 1 (R205). -/
theorem memWrite_dropped {s : State} {a : Addr} {n : Width} (v : Word) (hp : s.pend ≠ none) (hl : accessLegal a n = true)
    (ha : a.toNat ∈ [0x004, 0x008, 0x010, 0x014, 0x018] ∨ (0x1000 ≤ a.toNat ∧ a.toNat < 0x2000)) :
    s.memWrite a n v = some s.dropWrite := by
  have hdrop := State.unlessBusy_of_busy (busy_of_pend_ne_none hp)
  rcases ha with hreg | hin
  · simp only [List.mem_cons, List.not_mem_nil, or_false] at hreg
    rw [memWrite_register s v (by omega) hl]
    rcases hreg with ha | ha | ha | ha | ha <;> rw [ha] <;> exact congrArg some (hdrop _)
  · rw [memWrite_of_legal s v hl]
    simp only [State.writeValue, regionOf_eq_inbuf.mpr hin, hdrop]

/-- Settles O28, range by range of the address. -/
theorem busyBlockDropsWrites : Obligations.BusyBlockDropsWrites := by
  unfold Obligations.BusyBlockDropsWrites
  refine fun s a n v hp => ⟨fun hl => ⟨memWrite_of_illegal s v hl, memRead_of_illegal s hl⟩,
    fun hl => ⟨memWrite_dropped v hp hl, fun ha => ?status, fun hreg hin => ?readOnly⟩,
    fun t h => ?frame⟩
  case status =>
    rw [memWrite_register s v (by omega) hl, ha]
    rfl
  case readOnly => exact memWrite_ignored s v hl ((legal_range hl).imp (⟨·, hreg⟩) (·.resolve_left hin))
  case frame =>
    obtain ⟨f, rfl⟩ := memWrite_of_busy hp h
    exact ⟨rfl, rfl, rfl, rfl, rfl, rfl⟩

/-! ### The host's steps while a command is pending -/

/-- The machine k host steps later, as a pending command leaves it: the ENGINE step is k steps nearer, and only STATUS, the host and the
number of draws are the host's to change. -/
def State.waited (s : State) (k : Nat) (f : Status) (g : HostAgent) (d : Nat) : State :=
  { s with wait := s.wait - k, status := f, host := g, draws := d }

theorem State.waited_waited (s : State) (k k' : Nat) (f f' : Status) (g g' : HostAgent) (d d' : Nat) :
    (s.waited k f g d).waited k' f' g' d' = s.waited (k + k') f' g' d' := by
  simp [State.waited, Nat.sub_sub]

/-- A step of the host, where no reset is to come, only counts down (R210; log entry 2). -/
theorem State.tick_eq_waited {s : State} (hr : s.resets = []) : s.tick = s.waited 1 s.status s.host s.draws := by
  simp [State.tick, State.waited, tickResets, hr]

/-- While a command waits and no reset is to come, the host moves (R210). -/
theorem turn_of_waiting {s : State} (hw : 0 < s.wait) (hr : s.resets = []) : s.turn = .host := by
  obtain ⟨n, hn⟩ := Nat.exists_eq_add_one.mpr hw
  simp [State.turn, hn, hr]

/-- One step while a command waits, whatever statement the host is at (R205, R210). -/
theorem step_of_waiting {s t : State} (hp : s.pend ≠ none) (hr : s.resets = []) (hw : 0 < s.wait) (h : step s = .next t) :
    ∃ f g d, t = s.waited 1 f g d := by
  have hh := hostStep_of_turn (turn_of_waiting hw hr) h
  rw [State.tick_eq_waited hr] at hh
  obtain ⟨u, g, rfl, -, rfl | rfl | ⟨n, a, v, -, hu⟩⟩ := hostStep_next hh
  · exact ⟨_, g, _, rfl⟩
  · exact ⟨_, g, _, rfl⟩
  · obtain ⟨f, rfl⟩ := memWrite_of_busy (s := s.waited 1 s.status s.host s.draws) hp hu
    exact ⟨f, g, _, rfl⟩

/-! ### Runs -/

/-- A run goes on from its first step's next state. -/
theorem run_succ {M : Host.Core} {s u : M.State} (h : M.step s = .next u) (k : Nat) : M.run (k + 1) s = M.run k u := by
  simp only [Host.Core.run, h]

/-- A run of at least one step that goes on has a first step that goes on. -/
theorem run_succ_next {M : Host.Core} {s t : M.State} {k : Nat} (h : M.run (k + 1) s = .next t) :
    ∃ u, M.step s = .next u ∧ M.run k u = .next t := by
  simp only [Host.Core.run] at h
  split at h
  · next u hs => exact ⟨u, hs, h⟩
  · cases h
  · cases h

/-- A run that ends no later than the ENGINE step is due (R205, R210). -/
theorem run_of_waiting {k : Nat} {s t : State} (hp : s.pend ≠ none) (hr : s.resets = []) (hk : k ≤ s.wait)
    (h : Host.Core.run core k s = .next t) : ∃ f g d, t = s.waited k f g d := by
  induction k generalizing s with
  | zero =>
    obtain rfl : s = t := Host.Outcome.next.inj h
    exact ⟨s.status, s.host, s.draws, rfl⟩
  | succ k ih =>
    obtain ⟨u, hs, hrun⟩ := run_succ_next h
    obtain ⟨f, g, d, rfl⟩ := step_of_waiting hp hr (by omega) hs
    obtain ⟨f', g', d', rfl⟩ := ih (s := s.waited 1 f g d) hp hr (Nat.le_sub_of_add_le hk) hrun
    exact ⟨f', g', d', by rw [State.waited_waited, Nat.add_comm]⟩

/-- Settles O29: of a machine with a command pending the host's steps change nothing an operand or a result stands in. -/
theorem pendingCommandKeepsItsOperands : Obligations.PendingCommandKeepsItsOperands := by
  unfold Obligations.PendingCommandKeepsItsOperands
  intro k s t w hp hr hk h
  obtain ⟨f, g, d, rfl⟩ := run_of_waiting (by simp [hp]) hr hk h
  exact ⟨hp, rfl, hr, rfl, rfl, rfl, rfl, rfl, fun _ => rfl, rfl, rfl, fun _ => State.memByte_congr rfl rfl⟩

/-! ### The end of a run -/

/-- A host that has ended leaves the machine as it is (R213; log entry 11). -/
theorem hostStep_of_ended {s : State} (h : s.host.ended = true) : hostStep s = .next s := by
  unfold HostAgent.ended at h
  unfold hostStep
  split at h
  · next hst => rw [hst]
  · next hst => rw [hst]; rfl
  · cases h

/-- So its step only counts. -/
theorem step_of_ended {s : State} (hturn : s.turn = .host) (h : s.host.ended = true) : step s = .next s.tick := by
  simp only [step, agentStep, hturn]
  exact hostStep_of_ended (s := s.tick) h

/-- Settles O30 by induction on the host steps left to wait. -/
theorem engineStepComesAfterHalt : Obligations.EngineStepComesAfterHalt := by
  unfold Obligations.EngineStepComesAfterHalt
  intro s w hp hr hended
  induction hw : s.wait generalizing s with
  | zero =>
    obtain ⟨hcompletes, -⟩ := everyEngineStepCompletes
    obtain ⟨t, hs, hpend, hdone⟩ := hcompletes s w hp hw
    obtain ⟨-, -, hhost⟩ := engineStep_frame ((step_of_pending hp hw).symm.trans hs)
    exact ⟨t, run_succ hs 0, hpend, hdone, by simp [State.runEnded, hhost, hended, hpend]⟩
  | succ n ih =>
    have hs := step_of_ended (turn_of_waiting (by omega) hr) hended
    obtain ⟨t, hrun, hend⟩ := ih s.tick hp (congrArg tickResets hr) hended (congrArg (· - 1) hw)
    exact ⟨t, (run_succ hs (n + 1)).trans hrun, hend⟩

end Sys2Proof.Machine
end

section
/-! PROOFS. The reset of the block (70_reset_and_hazards.md R200 to R202). -/

namespace Sys2Proof.Machine

/-- Every result register is 0 after reset (R200). -/
theorem reg?_zero {off : Nat} {w : Word} (h : Results.zero.reg? off = some w) : w = 0 := by
  unfold Results.reg? at h
  split at h
  case h_22 => cases h
  all_goals exact (Option.some.inj h).symm

/-- So is every other register but ID (R200). -/
theorem ownReg_reset {off : Nat} (h : off ≠ 0x000) : State.reset.ownReg off = 0 := by
  unfold State.ownReg
  split
  case h_1 => exact absurd rfl h
  all_goals rfl

/-- Settles O20: the two parts of the register map, then the fields of the reset state. -/
theorem resetValues : Obligations.ResetValues := by
  unfold Obligations.ResetValues
  refine ⟨rfl, fun off h => ?_, rfl, rfl, rfl, fun _ => rfl⟩
  unfold State.readReg
  split
  next hreg => exact reg?_zero hreg
  next => exact ownReg_reset h

/-- Settles O21: in all that the invariant speaks of, the machine starts as a platform reset leaves it. -/
theorem resetMeetsTheInvariant : Obligations.ResetMeetsTheInvariant := by
  unfold Obligations.ResetMeetsTheInvariant
  exact State.reset.platformReset_inv.congr rfl rfl rfl rfl

/-- Settles O23: the platform's step is the reset of the block. -/
theorem platformResetResetsTheBlock : Obligations.PlatformResetResetsTheBlock := by
  unfold Obligations.PlatformResetResetsTheBlock
  intro s hturn
  have hs : step s = .next { s.platformReset with resets := s.resets.tail } := by simp only [step, agentStep, hturn]
  exact ⟨_, hs, rfl, rfl, rfl, rfl, rfl, rfl, rfl, fun _ => rfl, rfl, rfl, rfl⟩

end Sys2Proof.Machine
end

section
/-! PROOFS. Errors, the interrupt and bus errors (60_exceptions.md R181 to R190). -/

namespace Sys2Proof.Machine

/-! ### The error report (R181, R185) -/

/-- The codes of the legal reports. -/
theorem err_mem_of_errorReportLegal {err : BitVec 4} {info : Byte} (h : errorReportLegal err info = true) :
    err.toNat ∈ [0, 1, 2, 4] := by
  unfold errorReportLegal at h
  split at h
  case h_5 => cases h
  all_goals next herr => simp [herr]

/-- An ENGINE step leaves ERR or reports an error of R181. -/
theorem engineStep_err {w : Word} {s t : State} (h : engineStep w s = .next t) :
    t.status.err = s.status.err ∨ errorReportLegal t.status.err t.status.errInfo = true := by
  rcases engineStep_next h with ⟨e, he, rfl⟩ | ⟨i, -, hi⟩
  · obtain ⟨hlo, hhi⟩ := info_of_decode_error he
    exact .inr (errorReportLegal_illegal hlo hhi)
  · rcases exec_next hi with ⟨e, he, rfl⟩ | ⟨-, rfl⟩ | ⟨-, -, -, -, rfl⟩ | ⟨-, -, -, -, rfl⟩ | ⟨-, -, -, rfl⟩ | ⟨-, -, -, -, rfl⟩
    case inl => exact .inr (errorReportLegal_of_mem he)
    all_goals exact .inl rfl

/-- A MemWrite leaves ERR, or clears it by accepting a command (R100). -/
theorem memWrite_err {s t : State} {a : Addr} {n : Width} {v : Word} (h : s.memWrite a n v = some t) :
    t.status.err = s.status.err ∨ t.status.err = 0 := by
  obtain ⟨-, rfl | ⟨-, rfl⟩ | ⟨-, rfl⟩ | ⟨-, ⟨-, rfl⟩ | ⟨-, rfl⟩ | ⟨-, rfl⟩ | ⟨-, rfl⟩ | ⟨-, rfl⟩ | ⟨-, rfl⟩⟩⟩ := memWrite_some h
  case inr.inr.inr.inr.inl => exact .inr rfl
  all_goals exact .inl rfl

/-- Settles O13, agent by agent: only the ENGINE reports, and the host and the platform clear the report. -/
theorem reservedErrorCodesAreNeverReported : Obligations.ReservedErrorCodesAreNeverReported := by
  unfold Obligations.ReservedErrorCodesAreNeverReported
  intro s t h hne
  rcases step_next h with ⟨w, -, -, he⟩ | ⟨-, rfl⟩ | ⟨-, hh⟩
  · exact err_mem_of_errorReportLegal ((engineStep_err he).resolve_left hne)
  · exact List.mem_cons_self
  · obtain ⟨u, g, rfl, -, rfl | rfl | ⟨n, a, v, -, hu⟩⟩ := hostStep_next hh
    · exact absurd rfl hne
    · exact absurd rfl hne
    · have hzero : u.status.err = 0 := (memWrite_err hu).resolve_left hne
      simp [hzero]

/-! ### What no command touches (R183) -/

/-- The two buffers a command stores into lie outside INBUF, so no command writes a byte of it (20_memory.md R061, R074). -/
theorem exec_inbuf {i : Instr} {s t : State} (h : exec i s = .next t) {k : Nat} (hk : k < 4096) :
    Memory.get? t.mem (Config.inbufBase + k) = Memory.get? s.mem (Config.inbufBase + k) := by
  have hrsout : ¬ (Config.rsoutBase ≤ Config.inbufBase + k ∧ Config.inbufBase + k < Config.rsoutBase + Config.rsoutSize) := by
    simp only [Config.rsoutBase, Config.inbufBase]; omega
  have hmatrix : ¬ (Config.matrixBase ≤ Config.inbufBase + k ∧ Config.inbufBase + k < Config.matrixBase + Config.matrixBytes) := by
    simp only [Config.matrixBase, Config.inbufBase]; omega
  rcases exec_next h with ⟨e, -, rfl⟩ | ⟨-, rfl⟩ | ⟨-, -, -, -, rfl⟩ | ⟨-, -, -, -, rfl⟩ | ⟨-, -, -, rfl⟩ | ⟨-, -, -, -, rfl⟩
  case inr.inr.inl => exact generated_mem_outside s hmatrix
  case inr.inr.inr.inr.inr => exact rsEncoded_mem_outside s hrsout
  all_goals rfl

/-- Settles O15 from what an ENGINE step can do. -/
theorem engineNeverWritesOperands : Obligations.EngineNeverWritesOperands := by
  unfold Obligations.EngineNeverWritesOperands
  intro i s t h
  have hinbuf := fun k hk => exec_inbuf h (k := k) hk
  rcases exec_next h with ⟨e, -, rfl⟩ | ⟨-, rfl⟩ | ⟨-, -, -, -, rfl⟩ | ⟨-, -, -, -, rfl⟩ | ⟨-, -, -, rfl⟩ | ⟨-, -, -, -, rfl⟩ <;>
    exact ⟨rfl, rfl, rfl, rfl, rfl, hinbuf, rfl, rfl, rfl, rfl, rfl, rfl, rfl⟩

/-! ### The interrupt (R190) -/

theorem irq_eq_true {s : State} : s.irq = true ↔ s.status.done = true ∧ s.ctrl.ie = true := by simp [State.irq]

/-- Every ENGINE step sets DONE and leaves CTRL, so IRQ is IE after it (R101, R190). -/
theorem engineStep_irq {w : Word} {s t : State} (h : engineStep w s = .next t) : t.irq = s.ctrl.ie := by
  rcases engineStep_next h with ⟨e, -, rfl⟩ | ⟨i, -, hi⟩
  · rfl
  · rcases exec_next hi with ⟨e, -, rfl⟩ | ⟨-, rfl⟩ | ⟨-, -, -, -, rfl⟩ | ⟨-, -, -, -, rfl⟩ | ⟨-, -, -, rfl⟩ | ⟨-, -, -, -, rfl⟩ <;>
      rfl

/-- A legal access to a register is the 32-bit one at its offset (20_memory.md R064). -/
theorem register_access {a off : Addr} {n : Width} (hl : accessLegal a n = true) (ha : a.toNat = off.toNat) (hoff : off.toNat < 0x100) :
    a = off ∧ n = .w4 :=
  ⟨BitVec.eq_of_toNat_eq ha, width_of_legal_register (by omega) hl⟩

/-- The one MemWrite that raises IRQ sets IE while DONE = 1 (R190). -/
theorem memWrite_raises_irq {s t : State} {a : Addr} {n : Width} {v : Word} (h : s.memWrite a n v = some t)
    (hs : s.irq = false) (ht : t.irq = true) :
    (a = 0x004 ∧ n = .w4) ∧ s.status.done = true ∧ v.getLsbD 0 = true := by
  have hkeep : t.irq ≠ s.irq := by simp [hs, ht]
  obtain ⟨hl, rfl | ⟨-, rfl⟩ | ⟨-, rfl⟩ | ⟨-, ⟨ha, rfl⟩ | ⟨-, rfl⟩ | ⟨-, rfl⟩ | ⟨-, rfl⟩ | ⟨-, rfl⟩ | ⟨-, rfl⟩⟩⟩ := memWrite_some h
  case inr.inl =>
    obtain ⟨hdone, hie⟩ := irq_eq_true.mp ht
    exact absurd (irq_eq_true.mpr ⟨(Bool.and_eq_true_iff.mp hdone).1, hie⟩) (by simp [hs])
  case inr.inr.inr.inl =>
    obtain ⟨hdone, hie⟩ := irq_eq_true.mp ht
    exact ⟨register_access hl ha (by decide), hdone, hie⟩
  case inr.inr.inr.inr.inl => exact absurd (irq_eq_true.mp ht).1 Bool.false_ne_true
  all_goals exact absurd rfl hkeep

/-- The three MemWrites that end IRQ: DONE is cleared, a command is accepted, or IE is cleared (R190). -/
theorem memWrite_ends_irq {s t : State} {a : Addr} {n : Width} {v : Word} (h : s.memWrite a n v = some t)
    (hs : s.irq = true) (ht : t.irq = false) :
    ((a = 0x00C ∧ n = .w4) ∧ v.getLsbD 1 = true) ∨ (a = 0x008 ∧ n = .w4) ∨ ((a = 0x004 ∧ n = .w4) ∧ v.getLsbD 0 = false) := by
  have hkeep : t.irq ≠ s.irq := by simp [hs, ht]
  obtain ⟨hdone, hie⟩ := irq_eq_true.mp hs
  obtain ⟨hl, rfl | ⟨ha, rfl⟩ | ⟨-, rfl⟩ | ⟨-, ⟨ha, rfl⟩ | ⟨ha, rfl⟩ | ⟨-, rfl⟩ | ⟨-, rfl⟩ | ⟨-, rfl⟩ | ⟨-, rfl⟩⟩⟩ := memWrite_some h
  case inr.inl => exact .inl ⟨register_access hl ha (by decide), by simpa [State.irq, hdone, hie] using ht⟩
  case inr.inr.inr.inl =>
    exact .inr (.inr ⟨register_access hl ha (by decide), by simpa [State.irq, Ctrl.ofWord, hdone] using ht⟩)
  case inr.inr.inr.inr.inl => exact .inr (.inl (register_access hl ha (by decide)))
  all_goals exact absurd rfl hkeep

@[simp] theorem tick_irq (s : State) : s.tick.irq = s.irq := rfl

/-- A HOST step moves IRQ by its MemWrite alone. -/
theorem hostStep_moves_irq {s t : State} (h : hostStep s = .next t) (hne : t.irq ≠ s.irq) :
    ∃ n a v u, s.host.stmt? = some (.wr n a v) ∧ s.memWrite a n (s.host.writeSrc v) = some u ∧ u.irq = t.irq := by
  obtain ⟨u, g, rfl, -, rfl | rfl | ⟨n, a, v, hst, hu⟩⟩ := hostStep_next h
  · exact absurd rfl hne
  · exact absurd rfl hne
  · exact ⟨n, a, v, u, hst, hu, rfl⟩

/-- Settles O38, agent by agent: an ENGINE step leaves IRQ = IE, a reset clears it, and the host moves it by its writes alone. -/
theorem interruptRisesAndFallsOnlyAsSaid : Obligations.InterruptRisesAndFallsOnlyAsSaid := by
  unfold Obligations.InterruptRisesAndFallsOnlyAsSaid
  intro s t h
  refine ⟨rfl, ?_⟩
  rcases step_next h with ⟨w, hp, hw, he⟩ | ⟨hturn, rfl⟩ | ⟨hturn, hh⟩
  · have hirq := engineStep_irq he
    refine ⟨fun _ ht => .inl ⟨⟨w, turn_of_pending hp hw⟩, hirq.symm.trans ht⟩, fun hs ht => ?_⟩
    exact absurd (hirq.trans (irq_eq_true.mp hs).2) (by simp [ht])
  · exact ⟨fun _ ht => absurd ht Bool.false_ne_true, fun _ _ => .inl hturn⟩
  · refine ⟨fun hs ht => .inr ⟨hturn, ?rise⟩, fun hs ht => .inr ⟨hturn, ?fall⟩⟩
    case rise =>
      obtain ⟨n, a, v, u, hst, hu, hirq⟩ := hostStep_moves_irq hh (by simp [ht, hs])
      obtain ⟨⟨rfl, rfl⟩, hdone, hie⟩ := memWrite_raises_irq hu hs (hirq.trans ht)
      exact ⟨hdone, v, hst, hie⟩
    case fall =>
      obtain ⟨n, a, v, u, hst, hu, hirq⟩ := hostStep_moves_irq hh (by simp [ht, hs])
      refine ⟨v, ?_⟩
      rcases memWrite_ends_irq hu hs (hirq.trans ht) with ⟨⟨rfl, rfl⟩, hbit⟩ | ⟨rfl, rfl⟩ | ⟨⟨rfl, rfl⟩, hbit⟩
      · exact .inl ⟨hst, hbit⟩
      · exact .inr (.inl hst)
      · exact .inr (.inr ⟨hst, hbit⟩)

/-! ### Bus errors (R188) -/

/-- Settles O25: the access of the statement the host is at has no result. -/
theorem busErrorFaultsTheHostStep : Obligations.BusErrorFaultsTheHostStep := by
  unfold Obligations.BusErrorFaultsTheHostStep
  refine fun s a n hturn hl => ⟨fun v hst => ?_, fun r hst => ?_⟩
  · simp only [step_of_stmt hturn hst, execHost, hostWrite, memWrite_of_illegal s.tick _ hl]
  · simp only [step_of_stmt hturn hst, execHost, hostRead, memRead_of_illegal s.tick hl]

end Sys2Proof.Machine
end
